-- ==== Sys2Proof/Word.lean ====
section
/-! DEFINITION. The two bit-vector types of the core: a byte of the stream (R7) and a sample-path value (R8, R5 `W_S`). -/

namespace Sys2Proof

/-- One byte of the stream (R7). -/
abbrev Byte := BitVec 8

/-- One sample-path value, `s64` in two's complement (R8): samples, warm-up, coefficients, residuals, sums. The
register interface is 64 bits wide too (file 10, section 4). -/
abbrev Word := BitVec 64

end Sys2Proof
end

