-- ==== Sys2Proof/Config.lean ====
section
/-! DEFINITION. What an implementation fixes (R5) and the free values of the model. -/

namespace Sys2Proof

/-- `MAX_CH` (R5). -/
def Config.maxChannels : Nat := 8

/-- `MAX_BS` (R5). -/
def Config.maxBlock : Nat := 65536

/-- `MAX_READ` (R5): the widest single BitReader read. -/
def Config.maxRead : Nat := 64

/-- FREE VALUE (log entry 7). What a host read returns where the spec leaves the value unspecified (U3, U4, U9:
"any value"): the n-th such read returns `freeRead n`. It has no body a proof can see. -/
opaque Config.freeRead : Nat → Word

end Sys2Proof
end

