-- ==== Sys2Proof/Machine/BitReader.lean ====
section
/-! DEFINITION. The byte source (R70), the CRC units that every pulled byte passes (R170 to R175) and the BitReader
(R140 to R148). -/

namespace Sys2Proof.Machine

/-- What every pull answers once the source's bytes are used up (R70): sticky, consuming nothing. -/
inductive Terminal where
  | eof
  | ioError (e : BitVec 32)
  deriving DecidableEq, Repr

/-- The byte source as it stands (R70): the bytes not yet pulled and the terminal condition. It is an argument of the step
and no state of the core (R20, R39). -/
structure Source where
  bytes : List Byte
  term : Terminal
  deriving DecidableEq, Repr

/-- The stream position (R21), the BitReader (R23), the CRC accumulators (R24) and their tees (R25). -/
structure Datapath where
  srcPos : BitVec 64
  brCur : Byte
  brN : Nat
  crc8 : BitVec 8
  crc16 : BitVec 16
  tee8 : Bool
  tee16 : Bool
  deriving DecidableEq, Repr

/-- What a pull and a read act on: the source and the core's datapath. -/
structure Stream extends Source, Datapath
  deriving DecidableEq, Repr

/-- The bit cursor (R22). -/
def Stream.pc (r : Stream) : Nat := 8 * r.srcPos.toNat - r.brN

/-- One shift of the CRC-8 register (the loop body of R171). -/
def crc8Shift (c : BitVec 8) : BitVec 8 :=
  if c.getLsbD 7 then (c <<< 1) ^^^ 0x07#8 else c <<< 1

/-- `crc8_update` (R171). -/
def crc8Update (c : BitVec 8) (b : Byte) : BitVec 8 := Nat.iterate crc8Shift 8 (c ^^^ b)

/-- One shift of the CRC-16 register (the loop body of R173). -/
def crc16Shift (c : BitVec 16) : BitVec 16 :=
  if c.getLsbD 15 then (c <<< 1) ^^^ 0x8005#16 else c <<< 1

/-- `crc16_update` (R173). -/
def crc16Update (c : BitVec 16) (b : Byte) : BitVec 16 :=
  Nat.iterate crc16Shift 8 (c ^^^ (b.zeroExtend 16 <<< 8))

/-- The tee (R175): what a pulled byte does to the accumulators. -/
def Stream.tee (b : Byte) (r : Stream) : Stream :=
  { r with
    crc8 := if r.tee8 then crc8Update r.crc8 b else r.crc8
    crc16 := if r.tee16 then crc16Update r.crc16 b else r.crc16 }

/-- `SrcPull()` (R70, R71): the next byte and the stream after it, or nothing where the source answers its terminal
condition, which changes nothing. -/
def Stream.pull (r : Stream) : Option (Byte × Stream) :=
  match r.bytes with
  | [] => none
  | b :: rest => some (b, { r.tee b with bytes := rest, srcPos := r.srcPos + 1 })

/-- One bit of the stream (the loop body of R141): from `br_cur` while it has unread bits, else from a fresh byte, whose
first bit is bit 7. -/
def Stream.readBit (r : Stream) : Option (Bool × Stream) :=
  match r.brN with
  | n + 1 => some (r.brCur.getLsbD n, { r with brN := n })
  | 0 =>
    match r.pull with
    | none => none
    | some (b, r') => some (b.getLsbD 7, { r' with brCur := b, brN := 7 })

/-- The outcome of a read: a value and the stream after it, or the stream at the pull that failed (R142: the bits taken
before it stay consumed, the partial value is gone). -/
inductive Read where
  | ok (v : Nat) (r : Stream)
  | stop (r : Stream)
  deriving DecidableEq, Repr

/-- The loop of R141, with the value `v` so far and `n` bits still to come. -/
def Stream.readLoop : Nat → Nat → Stream → Read
  | 0, v, r => .ok v r
  | n + 1, v, r =>
    match r.readBit with
    | none => .stop r
    | some (b, r') => readLoop n (2 * v + b.toNat) r'

/-- `read(n)` (R141). The core issues it only for n in 1..64 (R148); `read 0` reads nothing, which is what R269 and R108
ask of an absent field. -/
def Stream.read (n : Nat) (r : Stream) : Read := r.readLoop n 0

/-- The number of bits the stream still holds: an upper bound for every scan. -/
def Stream.bitsLeft (r : Stream) : Nat := r.brN + 8 * r.bytes.length

/-- The loop of R145 with `q` zeros counted so far; `fuel` bounds the scan. -/
def Stream.unaryLoop : Nat → Nat → Stream → Read
  | 0, _, r => .stop r
  | fuel + 1, q, r =>
    match r.readBit with
    | none => .stop r
    | some (true, r') => .ok q r'
    | some (false, r') => unaryLoop fuel (q + 1) r'

/-- `read_unary()` (R145): the zeros before the next 1 bit. One more step than there are bits left, so that the scan ends
at a 1 bit or at the source's end, never at the bound. -/
def Stream.readUnary (r : Stream) : Read := r.unaryLoop (r.bitsLeft + 1) 0

/-- `align()` (R147). -/
def Stream.align (r : Stream) : Stream := { r with brN := 0 }

/-- The bits of `v`, `n` of them, the most significant first (R7). -/
def msbBits : Nat → Nat → List Bool
  | 0, _ => []
  | n + 1, v => v.testBit n :: msbBits n v

/-- The stream bits not yet consumed, in stream order (R72): the unread low bits of `br_cur` (R23), then the bytes. -/
def Stream.upcoming (r : Stream) : List Bool :=
  msbBits r.brN r.brCur.toNat ++ r.bytes.flatMap fun b => msbBits 8 b.toNat

end Sys2Proof.Machine
end

