-- ==== Sys2Proof/Syntax.lean ====
section
/-! DEFINITION. The instructions: one constructor per row of spec/opcode_table.json. An instruction is one syntax element
of the stream or a host command (R11); its arguments are the element's operand fields as the row's pattern names them.
Fields of a fixed width are bit vectors of that width; a field whose width depends on the position (SMP, COEF, RICE,
PADBITS) comes with its width. -/

namespace Sys2Proof

inductive Instr where
  -- format CMD (R125): host commands
  | next
  | reset
  -- format FH (R101): the 32-bit fixed part of a frame header
  | frame (var : BitVec 1) (bsc rc ca : BitVec 4) (ssc : BitVec 3)
  -- format FH.bsc (R104): block-size codes; 6 and 7 with their tail
  | bsc0
  | bsc1
  | bsc2
  | bsc3
  | bsc4
  | bsc5
  | bsc6 (tail : BitVec 8)
  | bsc7 (tail : BitVec 16)
  | bsc8
  | bsc9
  | bsc10
  | bsc11
  | bsc12
  | bsc13
  | bsc14
  | bsc15
  -- format FH.rc (R105): sample-rate codes; 12, 13 and 14 with their tail
  | rc0
  | rc1
  | rc2
  | rc3
  | rc4
  | rc5
  | rc6
  | rc7
  | rc8
  | rc9
  | rc10
  | rc11
  | rc12 (tail : BitVec 8)
  | rc13 (tail : BitVec 16)
  | rc14 (tail : BitVec 16)
  | rc15
  -- format FH.ca (R106): channel assignment
  | ca0
  | ca1
  | ca2
  | ca3
  | ca4
  | ca5
  | ca6
  | ca7
  | ca8
  | ca9
  | ca10
  | ca11
  | ca12
  | ca13
  | ca14
  | ca15
  -- format FH.ssc (R107): sample-size codes
  | ssc0
  | ssc1
  | ssc2
  | ssc3
  | ssc4
  | ssc5
  | ssc6
  | ssc7
  -- format U8 (R102): lead bytes
  | u8Lead1 (payload : BitVec 7)
  | u8Lead2 (payload : BitVec 5)
  | u8Lead3 (payload : BitVec 4)
  | u8Lead4 (payload : BitVec 3)
  | u8Lead5 (payload : BitVec 2)
  | u8Lead6 (payload : BitVec 1)
  | u8Lead7
  | u8BadLead1 (ignored : BitVec 6)
  | u8BadLead8
  -- format U8.cont (R102): continuation bytes
  | u8Cont (payload : BitVec 6)
  | u8BadCont0 (ignored : BitVec 7)
  | u8BadCont3 (ignored : BitVec 6)
  -- format FH.crc8 (R199)
  | crc8 (stored : BitVec 8)
  -- format SFH (R108): subframe headers
  | subConstant (pad wflag : BitVec 1)
  | subVerbatim (pad wflag : BitVec 1)
  | subFixed0 (pad wflag : BitVec 1)
  | subFixed1 (pad wflag : BitVec 1)
  | subFixed2 (pad wflag : BitVec 1)
  | subFixed3 (pad wflag : BitVec 1)
  | subFixed4 (pad wflag : BitVec 1)
  | subLpc (pad : BitVec 1) (orderMinus1 : BitVec 5) (wflag : BitVec 1)
  | subRsvd00001x (pad tLow : BitVec 1)
  | subRsvd0001xx (pad : BitVec 1) (tLow : BitVec 2)
  | subRsvd001101 (pad : BitVec 1)
  | subRsvd00111x (pad tLow : BitVec 1)
  | subRsvd01xxxx (pad : BitVec 1) (tLow : BitVec 4)
  | subBadPad (t : BitVec 6)
  -- format SFH.wsuffix (R108, R226): `zeros` 0 bits, then a 1 bit
  | wsuffix (zeros : Nat)
  -- format SMP (R110): a field of `width` bits
  | smp (width : Nat) (field : Word)
  -- format LPH (R114)
  | lph (prec shift : BitVec 4)
  | lphBadPrec
  | lphBadShift (prec shiftLow : BitVec 4)
  -- format LPC.coef (R114): a field of `width` bits
  | coef (width : Nat) (field : Word)
  -- format RES (R115)
  | resRice4 (porder : BitVec 4)
  | resRice5 (porder : BitVec 4)
  | resBadMethod (methodLow : BitVec 1)
  -- formats PART4 and PART5 (R116)
  | part4 (m : BitVec 4)
  | part4Esc
  | part5 (m : BitVec 5)
  | part5Esc
  -- format RICE (R117) with parameter `m`: `zeros` 0 bits, a 1 bit, `m` remainder bits
  | rice (m zeros : Nat) (remainder : Word)
  -- format FT.pad (R119): the `count` unread bits of the partly consumed byte
  | padbits (count : Nat) (padding : BitVec 7)
  -- format FT (R119)
  | foot (crc16 : BitVec 16)
  deriving DecidableEq, Repr

/-- The formats of the table (R120): what the element at the cursor is read as. The sequencer's position selects it
(R304); nothing in the stream does. SMP, LPC.coef and RICE come with the width their position fixes. -/
inductive Format where
  | cmd
  | fh
  | bsc
  | rc
  | ca
  | ssc
  | u8
  | u8cont
  | crc8
  | sfh
  | wsuffix
  | smp (width : Nat)
  | lph
  | coef (width : Nat)
  | res
  | part4
  | part5
  | rice (m : Nat)
  | pad
  | ft
  deriving DecidableEq, Repr

/-- The subframe kinds (R34). -/
inductive SubKind where
  | constant
  | verbatim
  | fixed
  | lpc
  deriving DecidableEq, Repr

/-- The fault kinds, with the names of R340. `none` is no fault and `endOfStream` the sentinel; `badMagic`,
`missingStreamInfo` and `invalidBlockType` are the host's and never raised by the core. -/
inductive ErrKind where
  | none
  | badMagic
  | missingStreamInfo
  | invalidBlockType
  | badSampleRate
  | badSync
  | badReserved
  | badChannelAssignment
  | badSampleSize
  | badBlockSize
  | badUtf8
  | badChecksum
  | badSubframeType
  | badLpcPrecision
  | badResidualMethod
  | unsupportedEscape
  | unexpectedEof
  | ioError
  | endOfStream
  | badWastedBits
  | badLpcShift
  | badPartition
  deriving DecidableEq, Repr

end Sys2Proof
end

