-- ==== Sys2Proof/WellFormed.lean ====
section
/-! DEFINITION. Which terms of Instr stand for an element: operands whose range their type does not fix, and code points
that the table gives to another row. -/

namespace Sys2Proof

/-- A field of `width` bits within the BitReader's range 1..64 (R141) holding a value of that many bits. -/
def fieldFits (width : Nat) (field : Word) : Bool :=
  1 ≤ width && width ≤ 64 && field.toNat < 2 ^ width

/-- `true` for the terms that stand for an element of the stream or a command. -/
def Instr.wellFormed : Instr → Bool
  | .smp b v => fieldFits b v
  | .coef b v => fieldFits b v && b ≤ 15
  | .lph prec _ => prec ≠ 15#4
  | .lphBadShift prec _ => prec ≠ 15#4
  | .part4 m => m ≠ 15#4
  | .part5 m => m ≠ 31#5
  | .rice m _ r => m ≤ 30 && r.toNat < 2 ^ m
  | .padbits k v => k ≤ 7 && v.toNat < 2 ^ k
  | _ => true

/-- Whether the element is a row of the table under the given `P_PAD_STRICT`: a subframe header whose padding bit is 1
is row SUB.BADPAD when it is true and the row its type code selects when it is false (R223). -/
def Instr.padOk (strict : Bool) : Instr → Bool
  | .subConstant pad _ => pad = 0#1 || !strict
  | .subVerbatim pad _ => pad = 0#1 || !strict
  | .subFixed0 pad _ => pad = 0#1 || !strict
  | .subFixed1 pad _ => pad = 0#1 || !strict
  | .subFixed2 pad _ => pad = 0#1 || !strict
  | .subFixed3 pad _ => pad = 0#1 || !strict
  | .subFixed4 pad _ => pad = 0#1 || !strict
  | .subLpc pad _ _ => pad = 0#1 || !strict
  | .subRsvd00001x pad _ => pad = 0#1 || !strict
  | .subRsvd0001xx pad _ => pad = 0#1 || !strict
  | .subRsvd001101 pad => pad = 0#1 || !strict
  | .subRsvd00111x pad _ => pad = 0#1 || !strict
  | .subRsvd01xxxx pad _ => pad = 0#1 || !strict
  | .subBadPad _ => strict
  | _ => true

end Sys2Proof
end

