-- ==== Sys2Proof/Decode.lean ====
section
/-! DEFINITION. The decoder: from the format the position asks for and the stream, to one instruction, or to a rejection
by name. Total on any stream. After it the encoder, from the same tables (file 30), and the flat reading of one table
word. -/

namespace Sys2Proof

open Sys2Proof.Machine (Stream Read msbBits)

/-- What decoding one element gives. Each outcome carries the stream behind the bits it consumed. -/
inductive Decoded where
  /-- an instruction -/
  | instr (i : Instr) (r : Stream)
  /-- a frame header no row of the table matches: the fault R187, R188 or R189 names -/
  | illegal (k : ErrKind) (r : Stream)
  /-- the source ended inside the element (R142); the stream stands at the failing pull -/
  | stopped (r : Stream)
  /-- a CMD code that names no command (R28) -/
  | noCommand (r : Stream)
  /-- a field width outside the BitReader's range (R148, U6) -/
  | badWidth (width : Nat)
  deriving DecidableEq, Repr

/-- Read a field of `n` bits and go on with its value. -/
def field (n : Nat) (r : Stream) (k : Nat → Stream → Decoded) : Decoded :=
  match r.read n with
  | .ok v r' => k v r'
  | .stop r' => .stopped r'

/-- A field whose width comes from the position: refused outside 1..64 (R148). -/
def sizedField (n : Nat) (r : Stream) (k : Nat → Stream → Decoded) : Decoded :=
  if 1 ≤ n ∧ n ≤ Config.maxRead then field n r k else .badWidth n

/-- The unary count (R145) and go on. -/
def unaryField (r : Stream) (k : Nat → Stream → Decoded) : Decoded :=
  match r.readUnary with
  | .ok q r' => k q r'
  | .stop r' => .stopped r'

/-- Format CMD: the command a 2-bit code names (R125, R28). -/
def commandOf (code : BitVec 2) : Option Instr :=
  if code = 1#2 then some .next else if code = 2#2 then some .reset else none

def decodeCmd (r : Stream) : Decoded :=
  field 2 r fun v r1 =>
    match commandOf (BitVec.ofNat 2 v) with
    | some i => .instr i r1
    | none => .noCommand r1

/-- Format FH (R101), checks in the order of R185: sync as soon as its 14 bits are there (R187), the first reserved bit
as soon as it is there (R188), the second after the whole fixed part (R189). -/
def decodeFh (r : Stream) : Decoded :=
  field 14 r fun sync r1 =>
    if sync ≠ 0x3FFE then .illegal .badSync r1
    else
      field 1 r1 fun rsv1 r2 =>
        if rsv1 ≠ 0 then .illegal .badReserved r2
        else
          field 1 r2 fun var r3 =>
          field 4 r3 fun bsc r4 =>
          field 4 r4 fun rc r5 =>
          field 4 r5 fun ca r6 =>
          field 3 r6 fun ssc r7 =>
          field 1 r7 fun rsv2 r8 =>
            if rsv2 ≠ 0 then .illegal .badReserved r8
            else
              .instr
                (.frame (BitVec.ofNat 1 var) (BitVec.ofNat 4 bsc) (BitVec.ofNat 4 rc) (BitVec.ofNat 4 ca)
                  (BitVec.ofNat 3 ssc))
                r8

/-- Format FH.ca: the row of a channel-assignment code (R106). The code is part of the fixed part already read. -/
def decodeCa (code : BitVec 4) (r : Stream) : Decoded :=
  match code.toNat with
  | 0 => .instr .ca0 r
  | 1 => .instr .ca1 r
  | 2 => .instr .ca2 r
  | 3 => .instr .ca3 r
  | 4 => .instr .ca4 r
  | 5 => .instr .ca5 r
  | 6 => .instr .ca6 r
  | 7 => .instr .ca7 r
  | 8 => .instr .ca8 r
  | 9 => .instr .ca9 r
  | 10 => .instr .ca10 r
  | 11 => .instr .ca11 r
  | 12 => .instr .ca12 r
  | 13 => .instr .ca13 r
  | 14 => .instr .ca14 r
  | _ => .instr .ca15 r

/-- Format FH.ssc: the row of a sample-size code (R107). -/
def decodeSsc (code : BitVec 3) (r : Stream) : Decoded :=
  match code.toNat with
  | 0 => .instr .ssc0 r
  | 1 => .instr .ssc1 r
  | 2 => .instr .ssc2 r
  | 3 => .instr .ssc3 r
  | 4 => .instr .ssc4 r
  | 5 => .instr .ssc5 r
  | 6 => .instr .ssc6 r
  | _ => .instr .ssc7 r

/-- Format FH.bsc: the row of a block-size code, with the tail that codes 6 and 7 read (R104, R194). -/
def decodeBsc (code : BitVec 4) (r : Stream) : Decoded :=
  match code.toNat with
  | 0 => .instr .bsc0 r
  | 1 => .instr .bsc1 r
  | 2 => .instr .bsc2 r
  | 3 => .instr .bsc3 r
  | 4 => .instr .bsc4 r
  | 5 => .instr .bsc5 r
  | 6 => field 8 r fun v r1 => .instr (.bsc6 (BitVec.ofNat 8 v)) r1
  | 7 => field 16 r fun v r1 => .instr (.bsc7 (BitVec.ofNat 16 v)) r1
  | 8 => .instr .bsc8 r
  | 9 => .instr .bsc9 r
  | 10 => .instr .bsc10 r
  | 11 => .instr .bsc11 r
  | 12 => .instr .bsc12 r
  | 13 => .instr .bsc13 r
  | 14 => .instr .bsc14 r
  | _ => .instr .bsc15 r

/-- Format FH.rc: the row of a sample-rate code, with the tail that codes 12, 13 and 14 read (R105, R196). -/
def decodeRc (code : BitVec 4) (r : Stream) : Decoded :=
  match code.toNat with
  | 0 => .instr .rc0 r
  | 1 => .instr .rc1 r
  | 2 => .instr .rc2 r
  | 3 => .instr .rc3 r
  | 4 => .instr .rc4 r
  | 5 => .instr .rc5 r
  | 6 => .instr .rc6 r
  | 7 => .instr .rc7 r
  | 8 => .instr .rc8 r
  | 9 => .instr .rc9 r
  | 10 => .instr .rc10 r
  | 11 => .instr .rc11 r
  | 12 => field 8 r fun v r1 => .instr (.rc12 (BitVec.ofNat 8 v)) r1
  | 13 => field 16 r fun v r1 => .instr (.rc13 (BitVec.ofNat 16 v)) r1
  | 14 => field 16 r fun v r1 => .instr (.rc14 (BitVec.ofNat 16 v)) r1
  | _ => .instr .rc15 r

/-- The row of a lead byte, by its count of leading 1 bits (R102, R163). -/
def leadOf (b : Nat) : Instr :=
  if b < 0x80 then .u8Lead1 (BitVec.ofNat 7 b)
  else if b < 0xC0 then .u8BadLead1 (BitVec.ofNat 6 b)
  else if b < 0xE0 then .u8Lead2 (BitVec.ofNat 5 b)
  else if b < 0xF0 then .u8Lead3 (BitVec.ofNat 4 b)
  else if b < 0xF8 then .u8Lead4 (BitVec.ofNat 3 b)
  else if b < 0xFC then .u8Lead5 (BitVec.ofNat 2 b)
  else if b < 0xFE then .u8Lead6 (BitVec.ofNat 1 b)
  else if b < 0xFF then .u8Lead7
  else .u8BadLead8

/-- The row of a continuation byte (R162). -/
def contOf (b : Nat) : Instr :=
  if b < 0x80 then .u8BadCont0 (BitVec.ofNat 7 b)
  else if b < 0xC0 then .u8Cont (BitVec.ofNat 6 b)
  else .u8BadCont3 (BitVec.ofNat 6 b)

/-- The row of a subframe header whose padding bit may be ignored, by its type code (R109); the reserved rows end before
`wflag`, which is then not read (R108). -/
def decodeType (pad : BitVec 1) (t : BitVec 6) (r : Stream) : Decoded :=
  let withFlag (row : BitVec 1 → Instr) : Decoded :=
    field 1 r fun v r1 => .instr (row (BitVec.ofNat 1 v)) r1
  if t.toNat = 0 then withFlag fun f => .subConstant pad f
  else if t.toNat = 1 then withFlag fun f => .subVerbatim pad f
  else if t.toNat < 4 then .instr (.subRsvd00001x pad (t.extractLsb' 0 1)) r
  else if t.toNat < 8 then .instr (.subRsvd0001xx pad (t.extractLsb' 0 2)) r
  else if t.toNat = 8 then withFlag fun f => .subFixed0 pad f
  else if t.toNat = 9 then withFlag fun f => .subFixed1 pad f
  else if t.toNat = 10 then withFlag fun f => .subFixed2 pad f
  else if t.toNat = 11 then withFlag fun f => .subFixed3 pad f
  else if t.toNat = 12 then withFlag fun f => .subFixed4 pad f
  else if t.toNat = 13 then .instr (.subRsvd001101 pad) r
  else if t.toNat < 16 then .instr (.subRsvd00111x pad (t.extractLsb' 0 1)) r
  else if t.toNat < 32 then .instr (.subRsvd01xxxx pad (t.extractLsb' 0 4)) r
  else withFlag fun f => .subLpc pad (t.extractLsb' 0 5) f

/-- Format SFH (R108): padding bit and type code are read together (R222); the padding bit is looked at first (R223). -/
def decodeSfh (strict : Bool) (r : Stream) : Decoded :=
  field 1 r fun pad r1 =>
  field 6 r1 fun t r2 =>
    if strict && pad ≠ 0 then .instr (.subBadPad (BitVec.ofNat 6 t)) r2
    else decodeType (BitVec.ofNat 1 pad) (BitVec.ofNat 6 t) r2

/-- Format LPH (R114): the precision code is looked at before the shift is read (R245). -/
def decodeLph (r : Stream) : Decoded :=
  field 4 r fun prec r1 =>
    if prec = 15 then .instr .lphBadPrec r1
    else
      field 5 r1 fun s r2 =>
        if s < 16 then .instr (.lph (BitVec.ofNat 4 prec) (BitVec.ofNat 4 s)) r2
        else .instr (.lphBadShift (BitVec.ofNat 4 prec) (BitVec.ofNat 4 s)) r2

/-- Format RES (R115): the method is looked at before the partition order is read (R261). -/
def decodeRes (r : Stream) : Decoded :=
  field 2 r fun method r1 =>
    if 1 < method then .instr (.resBadMethod (BitVec.ofNat 1 method)) r1
    else
      field 4 r1 fun p r2 =>
        if method = 0 then .instr (.resRice4 (BitVec.ofNat 4 p)) r2
        else .instr (.resRice5 (BitVec.ofNat 4 p)) r2

/-- Formats PART4 and PART5 (R116). -/
def decodePart4 (r : Stream) : Decoded :=
  field 4 r fun m r1 => .instr (if m = 15 then .part4Esc else .part4 (BitVec.ofNat 4 m)) r1

def decodePart5 (r : Stream) : Decoded :=
  field 5 r fun m r1 => .instr (if m = 31 then .part5Esc else .part5 (BitVec.ofNat 5 m)) r1

/-- Format RICE with parameter `m` (R117); no remainder field is read when `m = 0` (R269). -/
def decodeRice (m : Nat) (r : Stream) : Decoded :=
  unaryField r fun q r1 =>
    if m = 0 then .instr (.rice m q 0) r1
    else sizedField m r1 fun v r2 => .instr (.rice m q (BitVec.ofNat 64 v)) r2

/-- Format FT.pad (R119): the unread bits of the current byte, dropped by the element (R299). -/
def decodePad (r : Stream) : Decoded :=
  .instr (.padbits r.brN (BitVec.ofNat 7 (r.brCur.toNat % 2 ^ r.brN))) r.align

/-- Format FT (R119): two bytes pulled directly from the source, the first one high (R300). -/
def decodeFt (r : Stream) : Decoded :=
  match r.pull with
  | none => .stopped r
  | some (b0, r1) =>
    match r1.pull with
    | none => .stopped r1
    | some (b1, r2) => .instr (.foot (b0 ++ b1)) r2

/-- The decoder: the element of format `f` at the cursor of `r`, with `P_PAD_STRICT` as given (R223). -/
def decode (strict : Bool) (f : Format) (r : Stream) : Decoded :=
  match f with
  | .cmd => decodeCmd r
  | .fh => decodeFh r
  | .ca => field 4 r fun v r1 => decodeCa (BitVec.ofNat 4 v) r1
  | .ssc => field 3 r fun v r1 => decodeSsc (BitVec.ofNat 3 v) r1
  | .bsc => field 4 r fun v r1 => decodeBsc (BitVec.ofNat 4 v) r1
  | .rc => field 4 r fun v r1 => decodeRc (BitVec.ofNat 4 v) r1
  | .u8 => field 8 r fun v r1 => .instr (leadOf v) r1
  | .u8cont => field 8 r fun v r1 => .instr (contOf v) r1
  | .crc8 => field 8 r fun v r1 => .instr (.crc8 (BitVec.ofNat 8 v)) r1
  | .sfh => decodeSfh strict r
  | .wsuffix => unaryField r fun q r1 => .instr (.wsuffix q) r1
  | .smp b => sizedField b r fun v r1 => .instr (.smp b (BitVec.ofNat 64 v)) r1
  | .lph => decodeLph r
  | .coef b => sizedField b r fun v r1 => .instr (.coef b (BitVec.ofNat 64 v)) r1
  | .res => decodeRes r
  | .part4 => decodePart4 r
  | .part5 => decodePart5 r
  | .rice m => decodeRice m r
  | .pad => decodePad r
  | .ft => decodeFt r

/-! ### The encoder -/

/-- The bits of a bit vector in stream order. -/
def bvBits {n : Nat} (v : BitVec n) : List Bool := msbBits n v.toNat

/-- A subframe header of 8 bits: padding bit, type code, `wflag` (R108). -/
def sfhBits (pad : BitVec 1) (t : BitVec 6) (wflag : BitVec 1) : List Bool :=
  bvBits pad ++ bvBits t ++ bvBits wflag

/-- `zeros` 0 bits and a 1 bit (R226, R117). -/
def unaryBits (zeros : Nat) : List Bool := List.replicate zeros false ++ [true]

/-- The bits of a well-formed instruction in stream order, from the tables of file 30: the row's pattern, then the tail a
header code reads. -/
def encode : Instr → List Bool
  | .next => bvBits 0b01#2
  | .reset => bvBits 0b10#2
  | .frame var bsc rc ca ssc =>
    bvBits 0x3FFE#14 ++ [false] ++ bvBits var ++ bvBits bsc ++ bvBits rc ++ bvBits ca ++ bvBits ssc ++ [false]
  | .bsc0 => bvBits 0#4
  | .bsc1 => bvBits 1#4
  | .bsc2 => bvBits 2#4
  | .bsc3 => bvBits 3#4
  | .bsc4 => bvBits 4#4
  | .bsc5 => bvBits 5#4
  | .bsc6 tail => bvBits 6#4 ++ bvBits tail
  | .bsc7 tail => bvBits 7#4 ++ bvBits tail
  | .bsc8 => bvBits 8#4
  | .bsc9 => bvBits 9#4
  | .bsc10 => bvBits 10#4
  | .bsc11 => bvBits 11#4
  | .bsc12 => bvBits 12#4
  | .bsc13 => bvBits 13#4
  | .bsc14 => bvBits 14#4
  | .bsc15 => bvBits 15#4
  | .rc0 => bvBits 0#4
  | .rc1 => bvBits 1#4
  | .rc2 => bvBits 2#4
  | .rc3 => bvBits 3#4
  | .rc4 => bvBits 4#4
  | .rc5 => bvBits 5#4
  | .rc6 => bvBits 6#4
  | .rc7 => bvBits 7#4
  | .rc8 => bvBits 8#4
  | .rc9 => bvBits 9#4
  | .rc10 => bvBits 10#4
  | .rc11 => bvBits 11#4
  | .rc12 tail => bvBits 12#4 ++ bvBits tail
  | .rc13 tail => bvBits 13#4 ++ bvBits tail
  | .rc14 tail => bvBits 14#4 ++ bvBits tail
  | .rc15 => bvBits 15#4
  | .ca0 => bvBits 0#4
  | .ca1 => bvBits 1#4
  | .ca2 => bvBits 2#4
  | .ca3 => bvBits 3#4
  | .ca4 => bvBits 4#4
  | .ca5 => bvBits 5#4
  | .ca6 => bvBits 6#4
  | .ca7 => bvBits 7#4
  | .ca8 => bvBits 8#4
  | .ca9 => bvBits 9#4
  | .ca10 => bvBits 10#4
  | .ca11 => bvBits 11#4
  | .ca12 => bvBits 12#4
  | .ca13 => bvBits 13#4
  | .ca14 => bvBits 14#4
  | .ca15 => bvBits 15#4
  | .ssc0 => bvBits 0#3
  | .ssc1 => bvBits 1#3
  | .ssc2 => bvBits 2#3
  | .ssc3 => bvBits 3#3
  | .ssc4 => bvBits 4#3
  | .ssc5 => bvBits 5#3
  | .ssc6 => bvBits 6#3
  | .ssc7 => bvBits 7#3
  | .u8Lead1 p => bvBits 0b0#1 ++ bvBits p
  | .u8Lead2 p => bvBits 0b110#3 ++ bvBits p
  | .u8Lead3 p => bvBits 0b1110#4 ++ bvBits p
  | .u8Lead4 p => bvBits 0b11110#5 ++ bvBits p
  | .u8Lead5 p => bvBits 0b111110#6 ++ bvBits p
  | .u8Lead6 p => bvBits 0b1111110#7 ++ bvBits p
  | .u8Lead7 => bvBits 0b11111110#8
  | .u8BadLead1 p => bvBits 0b10#2 ++ bvBits p
  | .u8BadLead8 => bvBits 0b11111111#8
  | .u8Cont p => bvBits 0b10#2 ++ bvBits p
  | .u8BadCont0 p => bvBits 0b0#1 ++ bvBits p
  | .u8BadCont3 p => bvBits 0b11#2 ++ bvBits p
  | .crc8 c => bvBits c
  | .subConstant pad f => sfhBits pad 0b000000#6 f
  | .subVerbatim pad f => sfhBits pad 0b000001#6 f
  | .subFixed0 pad f => sfhBits pad 0b001000#6 f
  | .subFixed1 pad f => sfhBits pad 0b001001#6 f
  | .subFixed2 pad f => sfhBits pad 0b001010#6 f
  | .subFixed3 pad f => sfhBits pad 0b001011#6 f
  | .subFixed4 pad f => sfhBits pad 0b001100#6 f
  | .subLpc pad o f => sfhBits pad (1#1 ++ o) f
  | .subRsvd00001x pad t => bvBits pad ++ bvBits 0b00001#5 ++ bvBits t
  | .subRsvd0001xx pad t => bvBits pad ++ bvBits 0b0001#4 ++ bvBits t
  | .subRsvd001101 pad => bvBits pad ++ bvBits 0b001101#6
  | .subRsvd00111x pad t => bvBits pad ++ bvBits 0b00111#5 ++ bvBits t
  | .subRsvd01xxxx pad t => bvBits pad ++ bvBits 0b01#2 ++ bvBits t
  | .subBadPad t => bvBits 1#1 ++ bvBits t
  | .wsuffix k => unaryBits k
  | .smp b v => msbBits b v.toNat
  | .lph prec s => bvBits prec ++ bvBits 0#1 ++ bvBits s
  | .lphBadPrec => bvBits 15#4
  | .lphBadShift prec s => bvBits prec ++ bvBits 1#1 ++ bvBits s
  | .coef b v => msbBits b v.toNat
  | .resRice4 p => bvBits 0b00#2 ++ bvBits p
  | .resRice5 p => bvBits 0b01#2 ++ bvBits p
  | .resBadMethod m => bvBits 1#1 ++ bvBits m
  | .part4 m => bvBits m
  | .part4Esc => bvBits 15#4
  | .part5 m => bvBits m
  | .part5Esc => bvBits 31#5
  | .rice m q v => unaryBits q ++ msbBits m v.toNat
  | .padbits k v => msbBits k v.toNat
  | .foot c => bvBits c

/-- The format an instruction belongs to. -/
def Instr.format : Instr → Format
  | .next => .cmd
  | .reset => .cmd
  | .frame .. => .fh
  | .bsc0 => .bsc
  | .bsc1 => .bsc
  | .bsc2 => .bsc
  | .bsc3 => .bsc
  | .bsc4 => .bsc
  | .bsc5 => .bsc
  | .bsc6 _ => .bsc
  | .bsc7 _ => .bsc
  | .bsc8 => .bsc
  | .bsc9 => .bsc
  | .bsc10 => .bsc
  | .bsc11 => .bsc
  | .bsc12 => .bsc
  | .bsc13 => .bsc
  | .bsc14 => .bsc
  | .bsc15 => .bsc
  | .rc0 => .rc
  | .rc1 => .rc
  | .rc2 => .rc
  | .rc3 => .rc
  | .rc4 => .rc
  | .rc5 => .rc
  | .rc6 => .rc
  | .rc7 => .rc
  | .rc8 => .rc
  | .rc9 => .rc
  | .rc10 => .rc
  | .rc11 => .rc
  | .rc12 _ => .rc
  | .rc13 _ => .rc
  | .rc14 _ => .rc
  | .rc15 => .rc
  | .ca0 => .ca
  | .ca1 => .ca
  | .ca2 => .ca
  | .ca3 => .ca
  | .ca4 => .ca
  | .ca5 => .ca
  | .ca6 => .ca
  | .ca7 => .ca
  | .ca8 => .ca
  | .ca9 => .ca
  | .ca10 => .ca
  | .ca11 => .ca
  | .ca12 => .ca
  | .ca13 => .ca
  | .ca14 => .ca
  | .ca15 => .ca
  | .ssc0 => .ssc
  | .ssc1 => .ssc
  | .ssc2 => .ssc
  | .ssc3 => .ssc
  | .ssc4 => .ssc
  | .ssc5 => .ssc
  | .ssc6 => .ssc
  | .ssc7 => .ssc
  | .u8Lead1 _ => .u8
  | .u8Lead2 _ => .u8
  | .u8Lead3 _ => .u8
  | .u8Lead4 _ => .u8
  | .u8Lead5 _ => .u8
  | .u8Lead6 _ => .u8
  | .u8Lead7 => .u8
  | .u8BadLead1 _ => .u8
  | .u8BadLead8 => .u8
  | .u8Cont _ => .u8cont
  | .u8BadCont0 _ => .u8cont
  | .u8BadCont3 _ => .u8cont
  | .crc8 _ => .crc8
  | .subConstant _ _ => .sfh
  | .subVerbatim _ _ => .sfh
  | .subFixed0 _ _ => .sfh
  | .subFixed1 _ _ => .sfh
  | .subFixed2 _ _ => .sfh
  | .subFixed3 _ _ => .sfh
  | .subFixed4 _ _ => .sfh
  | .subLpc _ _ _ => .sfh
  | .subRsvd00001x _ _ => .sfh
  | .subRsvd0001xx _ _ => .sfh
  | .subRsvd001101 _ => .sfh
  | .subRsvd00111x _ _ => .sfh
  | .subRsvd01xxxx _ _ => .sfh
  | .subBadPad _ => .sfh
  | .wsuffix _ => .wsuffix
  | .smp b _ => .smp b
  | .lph _ _ => .lph
  | .lphBadPrec => .lph
  | .lphBadShift _ _ => .lph
  | .coef b _ => .coef b
  | .resRice4 _ => .res
  | .resRice5 _ => .res
  | .resBadMethod _ => .res
  | .part4 _ => .part4
  | .part4Esc => .part4
  | .part5 _ => .part5
  | .part5Esc => .part5
  | .rice m _ _ => .rice m
  | .padbits _ _ => .pad
  | .foot _ => .ft

/-- The two formats that do not start at just any bit: FT.pad is exactly the unread rest of the current byte, and FT is
pulled at a byte boundary (R74, R299, R300). -/
def Instr.alignedAt (i : Instr) (r : Stream) : Bool :=
  match i with
  | .padbits k _ => r.brN = k
  | .foot _ => r.brN = 0
  | _ => true

/-! ### One table word by itself -/

/-- The format and width in bits as which a table word of `nbits` bits is read. The spec selects the format by the
sequencer's position, never by the word (R120, R304); this flat choice is the model's (log entry 9). -/
def tableFormat (nbits w : Nat) : Option (Format × Nat) :=
  match nbits with
  | 2 => some (.cmd, 2)
  | 3 => some (.ssc, 3)
  | 4 => some (.bsc, 4)
  | 5 => some (.part5, 5)
  | 6 => some (.res, 6)
  | 7 => some (.sfh, 7)
  | 8 =>
    if w = 1 ∨ w = 2 then some (.cmd, 2)
    else if w < 16 then some (.bsc, 4)
    else if w = 31 then some (.part5, 5)
    else if w < 128 then some (.sfh, 8)
    else some (.u8, 8)
  | 9 => some (.lph, 9)
  | 16 => if w < 512 then some (.lph, 9) else some (.ft, 16)
  | 32 => some (.fh, 32)
  | _ => none

/-- The low `n` bytes of `w`, the high one first (R73). -/
def wordBytes : Nat → Nat → List Byte
  | 0, _ => []
  | n + 1, w => BitVec.ofNat 8 (w / 2 ^ (8 * n)) :: wordBytes n w

/-- A stream `r` whose next bits are the `width` bits of `w`, the most significant first, and then 16 zero bytes: the
bits beyond whole bytes are the unread bits of the current byte. -/
def wordStream (width w : Nat) (r : Stream) : Stream :=
  { r with
    brN := width % 8
    brCur := BitVec.ofNat 8 (w / 2 ^ (8 * (width / 8)))
    bytes := wordBytes (width / 8) w ++ List.replicate 16 0#8
    term := .eof }

/-- A BitReader with nothing read. -/
def blankStream : Stream :=
  { bytes := [], term := .eof, srcPos := 0, brCur := 0, brN := 0, crc8 := 0, crc16 := 0, tee8 := false, tee16 := false }

/-- The instruction the decoder reads from a table word, in the flat choice of `tableFormat`, with the default
`P_PAD_STRICT` (R6). -/
def decodeTableWord (nbits w : Nat) : Option Instr :=
  match tableFormat nbits w with
  | none => none
  | some (f, width) =>
    match decode true f (wordStream width w blankStream) with
    | .instr i _ => some i
    | _ => none

end Sys2Proof
end

