-- ==== Sys2Proof/Machine/State.lean ====
section
/-! DEFINITION. The state of the machine as plain data: the architectural state of file 10 (R20 to R38), and beside it the
arguments of the spec's step (R20, R39), the variables of the pseudocode inside a NEXT (R304), and the
host's side. The core's own state is `CoreState`, and it holds nothing but the items of R20. -/

namespace Sys2Proof.Machine

/-- `STATE` (R29). -/
inductive Status where
  | idle
  | busy
  | done
  | eos
  | fault
  deriving DecidableEq, Repr

/-- The frame header result registers (R33). -/
structure Header where
  var : BitVec 1
  bs : BitVec 17
  rate : BitVec 20
  ca : BitVec 4
  nch : BitVec 4
  ss : BitVec 6
  num : BitVec 36
  crc8 : BitVec 8
  deriving DecidableEq, Repr

/-- A subframe record (R34): `SF_KIND`, `SF_ORDER`, `SF_WASTED`. -/
structure SubRecord where
  kind : SubKind
  order : BitVec 6
  wasted : BitVec 6
  deriving DecidableEq, Repr

/-- The predictor files: `W`, `C`, `LPC_SHIFT` (R36) and `R` (R37). `r` lists the elements written in this subframe so
far, in index order. -/
structure Files where
  w : Vector Word 32
  c : Vector Word 32
  shift : BitVec 4
  r : List Word
  deriving DecidableEq, Repr

/-- The sequencer's position in the nesting of R304: which element comes next while BUSY. -/
inductive Pos where
  | frame
  | ca
  | ssc
  | numLead
  | numCont
  | bsc
  | rc
  | crc8
  | subHdr
  | wsuffix
  | smp
  | lph
  | coef
  | res
  | part
  | rice
  | pad
  | foot
  deriving DecidableEq, Repr

/-- The fields of a frame header's fixed part that later elements act on (R185). -/
structure FixedPart where
  var : BitVec 1
  bsc : BitVec 4
  rc : BitVec 4
  ca : BitVec 4
  ssc : BitVec 3
  deriving DecidableEq, Repr

/-- The pseudocode's local variables that live across elements of a NEXT. They are no state of the core (R20): outside a
NEXT they hold `Seq.start` (log entry 3). -/
structure Seq where
  pos : Pos
  /-- R185: `var`, `bsc`, `rc`, `ca`, `ssc` -/
  fix : FixedPart
  /-- R161: the value `v` so far -/
  num : BitVec 36
  /-- R161: continuation bytes still to come -/
  numLeft : Nat
  /-- R297: the channel `c` -/
  ch : Nat
  /-- R221: `kind`, between the type code and acceptance -/
  kind : SubKind
  /-- R221: `p`, between the type code and acceptance -/
  order : BitVec 6
  /-- R237, R238, R244: the index of the next sample, warm-up or coefficient -/
  idx : Nat
  /-- R244: `prec` -/
  prec : BitVec 4
  /-- R261: `method`, 0 or 1: `M_bits` is 4 + `method` -/
  method : BitVec 1
  /-- R261: the partition order `P` -/
  porder : BitVec 4
  /-- R262: the partition `i` -/
  part : Nat
  /-- R263: the Rice parameter `M` -/
  m : BitVec 5
  /-- R262: codewords of the partition still to come -/
  todo : Nat
  /-- R221: the vector `X`, the elements written in this subframe so far, in index order -/
  x : List Word
  deriving DecidableEq, Repr

/-- The variables as a NEXT finds them: the position is the frame header, the others hold nothing. -/
def Seq.start : Seq :=
  { pos := .frame, fix := { var := 0, bsc := 0, rc := 0, ca := 0, ssc := 0 }, num := 0, numLeft := 0, ch := 0,
    kind := .constant, order := 0, idx := 0, prec := 0, method := 0, porder := 0, part := 0, m := 0, todo := 0, x := [] }

/-- The model arguments `P_PAD_STRICT` and `P_CRC16_CHECK` (R6). No step changes them. -/
structure Params where
  padStrict : Bool
  crc16Check : Bool
  deriving DecidableEq, Repr

/-- What the host can do to the core (R395): write a register, read one, wait until `STATE` is not BUSY (R390), or drive
the reset line (R380, R382). -/
inductive HostEvent where
  | write (reg : Nat) (value : Word)
  | read (reg : Nat)
  | poll
  | resetLine
  deriving DecidableEq, Repr

/-- The sample memory `D` (R38), sparse: element `D[c][i]` is listed at address `c * 65536 + i` once it is written.
Addresses rise strictly. An unlisted element has no value (log entry 5). -/
abbrev SampleMem := List (Nat × Word)

/-- The architectural state of the core: the items of R20's table, and nothing else. -/
structure CoreState where
  /-- `src_pos`, `br_cur`, `br_n`, `crc8`, `crc16`, `tee8`, `tee16` (R21, R23, R24, R25) -/
  dp : Datapath
  /-- `CFG_RATE` (R26) -/
  cfgRate : BitVec 20
  /-- `CFG_BPS` (R27) -/
  cfgBps : BitVec 6
  /-- `STATE` (R29) -/
  status : Status
  /-- `ERR` (R30) -/
  err : ErrKind
  /-- `ERR_INNER` (R31) -/
  errInner : BitVec 32
  /-- `FRAME_COUNT` (R32) -/
  frameCount : BitVec 64
  /-- `FH_*` (R33) -/
  hdr : Header
  /-- `SF_*[c]` (R34) -/
  subs : Vector SubRecord 8
  /-- `FT_CRC16` (R35) -/
  ftCrc16 : BitVec 16
  /-- `W`, `C`, `LPC_SHIFT`, `R` (R36, R37) -/
  files : Files
  /-- `D` (R38) -/
  d : SampleMem
  /-- `D_SEL` (R38, R76) -/
  dSel : BitVec 32
  deriving DecidableEq, Repr

/-- The arguments of the step that are no state of the core (R6, R20, R39): the source and the parameters. -/
structure Arguments where
  /-- `SRC` (R70; log entry 1) -/
  src : Source
  /-- `P_PAD_STRICT`, `P_CRC16_CHECK` (R6; log entry 6) -/
  params : Params
  deriving DecidableEq, Repr

/-- The host's side (log entries 2, 7). -/
structure HostSide where
  /-- the host's coming accesses, the next one first -/
  host : List HostEvent
  /-- what the host's last register read returned -/
  hostData : Word
  /-- the number of the next free value a host read meets -/
  freeCount : Nat
  deriving DecidableEq, Repr

/-- What a step takes and answers: `(state, SRC) → (state', SRC')` (R392) with the parameters, the host, and the
procedure's variables. -/
structure State extends CoreState, Arguments, HostSide where
  /-- the local variables of the frame procedure (R297, R304) -/
  seq : Seq
  deriving DecidableEq, Repr

/-- The source and the datapath together, as a read takes them (R141). -/
abbrev State.stream (s : State) : Stream := { toSource := s.src, toDatapath := s.dp }

/-- The state once reading has left source and datapath as in `r`. -/
def State.withStream (s : State) (r : Stream) : State := { s with src := r.toSource, dp := r.toDatapath }

/-- The reasons the model stops without a next state. A fault of the spec (R345) is none of these: it is a next state
with `STATE = FAULT`. -/
inductive Fault where
  /-- Raised by the step before it fetches an element when the source holds more bytes than `src_pos` can count (R21: "a
  source longer than 2^64 − 1 bytes is outside the model", U8). Safe: the model stops where the spec says nothing. -/
  | sourceTooLong
  deriving DecidableEq, Repr

/-- The reasons the model declines to give a meaning. -/
inductive Refusal where
  /-- An instruction with no meaning yet, by its mnemonic: exec's refused arms. Safe. No arm is refused now. -/
  | notModelled (mnemonic : String)
  /-- Raised by the step when the position asks for a field whose width is outside 1..64 (U6: "`read(n)` with `n = 0` or
  `n > 64`": refuse). Safe; R148: the core never issues such a read. -/
  | readWidth (width : Nat)
  deriving DecidableEq, Repr

/-- The stream position, the BitReader and the CRC units after reset (R40). -/
def Datapath.reset : Datapath :=
  { srcPos := 0, brCur := 0, brN := 0, crc8 := 0, crc16 := 0, tee8 := false, tee16 := false }

/-- The core right after reset (R40). `W`, `C`, `LPC_SHIFT`, `R` and `D` have no reset value in the spec (log entries 4,
5). -/
def CoreState.reset : CoreState :=
  { dp := Datapath.reset
    cfgRate := 0
    cfgBps := 0
    status := .idle
    err := .none
    errInner := 0
    frameCount := 0
    hdr := { var := 0, bs := 0, rate := 0, ca := 0, nch := 0, ss := 0, num := 0, crc8 := 0 }
    subs := Vector.replicate 8 { kind := .constant, order := 0, wasted := 0 }
    ftCrc16 := 0
    files := { w := Vector.replicate 32 0, c := Vector.replicate 32 0, shift := 0, r := [] }
    d := []
    dSel := 0 }

/-- The core right after reset with nothing attached: a source without bytes, the default parameters (R6), no host access
coming. -/
def State.reset : State :=
  { toCoreState := CoreState.reset
    src := { bytes := [], term := .eof }
    params := { padStrict := true, crc16Check := true }
    host := []
    hostData := 0
    freeCount := 0
    seq := Seq.start }

end Sys2Proof.Machine
end

