-- ==== Sys2Proof/Machine/Flags.lean ====
section
/-! DEFINITION. The status the core has: the codes of `STATE` (R29), `ERR` (R340) and `SF_KIND` (R34). The core has no
condition codes, no carry and no overflow flag (R29). -/

namespace Sys2Proof.Machine

/-- The value of `STATE` (R29). -/
def Status.code : Status → BitVec 3
  | .idle => 0
  | .busy => 1
  | .done => 2
  | .eos => 3
  | .fault => 4

/-- The value of `SF_KIND` (R34). -/
def kindCode : SubKind → BitVec 2
  | .constant => 0
  | .verbatim => 1
  | .fixed => 2
  | .lpc => 3

/-- The value of `ERR` (R340). -/
def errCode : ErrKind → BitVec 5
  | .none => 0
  | .badMagic => 1
  | .missingStreamInfo => 2
  | .invalidBlockType => 3
  | .badSampleRate => 4
  | .badSync => 5
  | .badReserved => 6
  | .badChannelAssignment => 7
  | .badSampleSize => 8
  | .badBlockSize => 9
  | .badUtf8 => 10
  | .badChecksum => 11
  | .badSubframeType => 12
  | .badLpcPrecision => 13
  | .badResidualMethod => 14
  | .unsupportedEscape => 15
  | .unexpectedEof => 16
  | .ioError => 17
  | .endOfStream => 18
  | .badWastedBits => 24
  | .badLpcShift => 25
  | .badPartition => 26

/-- Whether `NEXT` is accepted (R295). -/
def Status.acceptsNext : Status → Bool
  | .idle => true
  | .busy => false
  | .done => true
  | .eos => true
  | .fault => false

/-- Whether the host may write `CFG_RATE`, `CFG_BPS` and `D_SEL` (R26, R306, R395). -/
def Status.acceptsWrites : Status → Bool
  | .idle => true
  | .busy => false
  | .done => true
  | .eos => true
  | .fault => false

end Sys2Proof.Machine
end

