-- ==== Sys2Proof/Machine/Operands.lean ====
section
/-! DEFINITION. Operand forms and integer arithmetic of the elements: sign extension, zig-zag, the code tables of the
frame header, the sample width and the predictor. -/

namespace Sys2Proof.Machine

/-- `sext_n(v)` (R9, R144): the low `n` bits of `v` as a two's-complement number, held as `s64`. -/
def sext (n : Nat) (v : Word) : Word := (v.truncate n).signExtend 64

/-- `unzigzag(u)` (R268). -/
def unzigzag (u : Word) : Word :=
  if u.getLsbD 0 then -(u >>> 1) - 1 else u >>> 1

/-- The folded value `u` of a codeword, reduced mod 2^64 (R267, R270). -/
def riceFold (m zeros : Nat) (remainder : Word) : Word := BitVec.ofNat 64 (zeros * 2 ^ m + remainder.toNat)

/-- `BS_TABLE` (R195) for the codes that have an entry. -/
def bsTable (code : Nat) : BitVec 17 :=
  match code with
  | 1 => 192
  | 2 => 576
  | 3 => 1152
  | 4 => 2304
  | 5 => 4608
  | 8 => 256
  | 9 => 512
  | 10 => 1024
  | 11 => 2048
  | 12 => 4096
  | 13 => 8192
  | 14 => 16384
  | 15 => 32768
  | _ => 0

/-- `RATE_TABLE` (R197) for the codes that have an entry. -/
def rateTable (code : Nat) : BitVec 20 :=
  match code with
  | 1 => 88200
  | 2 => 176400
  | 3 => 192000
  | 4 => 8000
  | 5 => 16000
  | 6 => 22050
  | 7 => 24000
  | 8 => 32000
  | 9 => 44100
  | 10 => 48000
  | 11 => 96000
  | _ => 0

/-- `FH_NCH` for a channel assignment (R190): code + 1 up to 7, else 2. -/
def channelCount (ca : BitVec 4) : BitVec 4 := if ca.toNat ≤ 7 then ca + 1 else 2

/-- `side` (R230): 1 for the channel that carries the side signal, else 0. -/
def sideBit (ca : BitVec 4) (c : Nat) : Nat :=
  if (ca = 8 ∧ c = 1) ∨ (ca = 9 ∧ c = 0) ∨ (ca = 10 ∧ c = 1) then 1 else 0

/-- `bps(c) = FH_SS + side − w` (R231), an integer that may be zero or negative. -/
def sampleWidth (ss : BitVec 6) (ca : BitVec 4) (c w : Nat) : Int := (ss.toNat : Int) + sideBit ca c - w

/-- `decode_type(t)` (R224): kind and order, nothing for a reserved type code. -/
def typeOf (t : BitVec 6) : Option (SubKind × BitVec 6) :=
  if t.toNat = 0 then some (.constant, 0)
  else if t.toNat = 1 then some (.verbatim, 0)
  else if t.extractLsb' 3 3 = 0b001#3 then
    if (t.extractLsb' 0 3).toNat > 4 then none else some (.fixed, (t.extractLsb' 0 3).zeroExtend 6)
  else if t.getLsbD 5 then some (.lpc, (t.extractLsb' 0 5).zeroExtend 6 + 1)
  else none

/-- The partition length `n` of R265, an integer that may be negative. -/
def partitionLength (bs : BitVec 17) (p : Nat) (porder : BitVec 4) (i : Nat) : Int :=
  if porder.toNat = 0 then (bs.toNat : Int) - p
  else if i = 0 then (bs.toNat / 2 ^ porder.toNat : Nat) - (p : Int)
  else (bs.toNat / 2 ^ porder.toNat : Nat)

/-- `FIXED_COEF[p]` (R284). -/
def fixedCoef (p : Nat) : List Word :=
  match p with
  | 1 => [1]
  | 2 => [2, -1]
  | 3 => [3, -3, 1]
  | 4 => [4, -6, 4, -1]
  | _ => []

/-- `sum` of R281 over the coefficients from `C[0]` on and the samples from the most recent on: products and sums mod
2^64 (R282), added in ascending `j`. -/
def weightedSum (acc : Word) : List Word → List Word → Word
  | c :: cs, x :: xs => weightedSum (acc + c * x) cs xs
  | _, _ => acc

/-- The second loop of R281: the samples from index `p` on, `recent` the earlier ones with the latest first. The shift is
arithmetic (R283). -/
def predictFrom (coefs : List Word) (shift : Nat) (recent : List Word) : List Word → List Word
  | [] => []
  | r :: rs =>
    let x := r + (weightedSum 0 coefs recent).sshiftRight shift
    x :: predictFrom coefs shift (x :: recent) rs

/-- `predict(p)` (R281) of the `p` coefficients, the `p` warm-up samples and the residuals. -/
def predict (coefs warmup residuals : List Word) (shift : Nat) : List Word :=
  warmup ++ predictFrom coefs shift warmup.reverse residuals

end Sys2Proof.Machine
end

