-- ==== Sys2Proof/Machine/Ops.lean ====
section
/-! DEFINITION. The named operations of the machine: raising a fault (R345), the ends of input (R142, R302), reset (R380),
the sample memory, fetching the element at the position, and the sequencing of a subframe. -/

namespace Sys2Proof.Machine

/-! ### Exceptions -/

/-- `raise K(info)` (R345): records the kind and ends the NEXT, whose variables are gone. No other state changes. -/
def State.raise (s : State) (k : ErrKind) (info : BitVec 32) : State :=
  { s with status := .fault, err := k, errInner := info, seq := Seq.start }

/-- The sentinel (R302): a frame whose first pull answers Eof. The tees that the header start switched on go off again. -/
def State.endOfStream (s : State) : State :=
  { s with
    status := .eos
    err := .endOfStream
    errInner := 0
    dp := { s.dp with tee8 := false, tee16 := false }
    seq := Seq.start }

/-- The success of a frame (R301): it is counted and the core is DONE. -/
def State.frameDone (s : State) : State :=
  { s with frameCount := s.frameCount + 1, status := .done, seq := Seq.start }

/-- A pull answered the terminal condition (R142): IoError(e) is the fault IoError with `e`; Eof is the sentinel at the
first pull of a frame, `first`, and UnexpectedEof anywhere else. -/
def State.endOfInput (first : Bool) (s : State) : State :=
  match s.src.term with
  | .ioError e => s.raise .ioError e
  | .eof => if first then s.endOfStream else s.raise .unexpectedEof 0

/-- Reset, by the line or by the command (R380, R296): every item of R40 at its reset value; a NEXT in progress is abandoned
(R382). The source keeps what it has not yet delivered (R381); the parameters and the host's side are not the core's. -/
def State.hardReset (s : State) : State := { s with toCoreState := CoreState.reset, seq := Seq.start }

/-! ### The sample memory (R38) -/

/-- The address of `D[c][i]`. -/
def sampleAddr (c i : Nat) : Nat := c * Config.maxBlock + i

/-- The canonical form: addresses rise strictly. -/
def memWf : SampleMem → Bool
  | [] => true
  | [_] => true
  | a :: b :: rest => a.1 < b.1 && memWf (b :: rest)

/-- The element at an address; an unlisted one has no value. -/
def memRead (m : SampleMem) (a : Nat) : Option Word := (m.find? fun e => e.1 = a).map Prod.snd

/-- The listed entries for the elements `vs` at the addresses from `base` on. -/
def memBlock (base : Nat) : List Word → SampleMem
  | [] => []
  | v :: vs => (base, v) :: memBlock (base + 1) vs

/-- Write the elements `vs` at the addresses from `base` on, in ascending order. -/
def memWriteBlock (m : SampleMem) (base : Nat) (vs : List Word) : SampleMem :=
  (m.filter fun e => e.1 < base) ++ memBlock base vs ++ m.filter fun e => base + vs.length ≤ e.1

/-! ### Position and registers -/

/-- The record of channel `c` (R34). -/
def State.sub (s : State) (c : Nat) : SubRecord := s.subs[c]?.getD { kind := .constant, order := 0, wasted := 0 }

/-- The record of the channel being decoded. -/
def State.cur (s : State) : SubRecord := s.sub s.seq.ch

/-- The predictor order `p` of the subframe being decoded. -/
def State.order (s : State) : Nat := s.cur.order.toNat

/-- The sample width `b` of the subframe being decoded (R231). -/
def State.width (s : State) : Nat := (sampleWidth s.hdr.ss s.hdr.ca s.seq.ch s.cur.wasted.toNat).toNat

/-- Go on to the element at `p`. -/
def State.goto (s : State) (p : Pos) : State := { s with seq := { s.seq with pos := p } }

/-- Go on to the element at `p` with loop index `i`. -/
def State.gotoIdx (s : State) (p : Pos) (i : Nat) : State := { s with seq := { s.seq with pos := p, idx := i } }

/-! ### Fetching an element -/

/-- What the pseudocode does before an element's first read: the header clears the CRCs and switches the tees on (R186),
the CRC-8 field and the footer switch theirs off (R199, R300). -/
def State.openElement (s : State) : State :=
  match s.seq.pos with
  | .frame => { s with dp := { s.dp with crc8 := 0, crc16 := 0, tee8 := true, tee16 := true } }
  | .crc8 => { s with dp := { s.dp with tee8 := false } }
  | .foot => { s with dp := { s.dp with tee16 := false } }
  | _ => s

/-- The element at the position (R304). The four header codes were read with the fixed part and are taken from there; of
them only the tails are still in the stream. -/
def State.fetch (s : State) : Decoded :=
  let strict := s.params.padStrict
  let r := s.stream
  match s.seq.pos with
  | .frame => decode strict .fh r
  | .ca => decodeCa s.seq.fix.ca r
  | .ssc => decodeSsc s.seq.fix.ssc r
  | .numLead => decode strict .u8 r
  | .numCont => decode strict .u8cont r
  | .bsc => decodeBsc s.seq.fix.bsc r
  | .rc => decodeRc s.seq.fix.rc r
  | .crc8 => decode strict .crc8 r
  | .subHdr => decode strict .sfh r
  | .wsuffix => decode strict .wsuffix r
  | .smp => decode strict (.smp s.width) r
  | .lph => decode strict .lph r
  | .coef => decode strict (.coef (s.seq.prec.toNat + 1)) r
  | .res => decode strict .res r
  | .part => decode strict (if s.seq.method = 0 then .part4 else .part5) r
  | .rice => decode strict (.rice s.seq.m.toNat) r
  | .pad => decode strict .pad r
  | .foot => decode strict .ft r

/-- Whether the source is within what `src_pos` can count (R21, U8). -/
def State.sourceFits (s : State) : Bool := s.dp.srcPos.toNat + s.src.bytes.length < 2 ^ 64

/-! ### Sequencing of the frame and of a subframe -/

/-- The head of the subframe loop (R298): the subframe of channel `c`, or the padding once every channel is decoded. -/
def State.gotoSubframe (s : State) (c : Nat) : State :=
  { s with seq := { s.seq with ch := c, pos := if c < s.hdr.nch.toNat then .subHdr else .pad } }

/-- The finish of the channel's subframe (R250): `D[c][i] <- X[i] · 2^w`, then the next subframe. -/
def State.finishSubframe (s : State) : State :=
  State.gotoSubframe
    { s with
      d := memWriteBlock s.d (sampleAddr s.seq.ch 0)
        ((s.seq.x.take s.hdr.bs.toNat).map fun x : Word => x <<< s.cur.wasted.toNat) }
    (s.seq.ch + 1)

/-- `x[j] <- v` for each listed `v` from `j = 0` on. -/
def setFirst (file : Vector Word 32) (vs : List Word) : Vector Word 32 :=
  (vs.zipIdx).foldl (fun f e => f.setIfInBounds e.2 e.1) file

/-- The reconstruction of the channel's samples from the files (R281). -/
def State.predicted (s : State) (coefs : Vector Word 32) (shift : BitVec 4) : List Word :=
  predict (coefs.toList.take s.order) (s.files.w.toList.take s.order) s.files.r shift.toNat

/-- What follows the residual section: the predictor, for FIXED with its coefficient table and shift 0 (R238, R284), for
LPC with the coefficients and the shift just read (R244), then the finish. -/
def State.reconstruct (s : State) : State :=
  match s.cur.kind with
  | .fixed =>
    let coefs := setFirst s.files.c (fixedCoef s.order)
    State.finishSubframe
      { s with
        files := { s.files with c := coefs, shift := 0 }
        seq := { s.seq with x := s.predicted coefs 0 } }
  | .lpc => State.finishSubframe { s with seq := { s.seq with x := s.predicted s.files.c s.files.shift } }
  | .constant => s.finishSubframe
  | .verbatim => s.finishSubframe

/-- The start of a subframe's body (R221): what comes first in each kind (R304). The vector X starts empty. -/
def State.startBody (s : State) : State :=
  let s0 := { s with seq := { s.seq with x := [] } }
  match s.cur.kind with
  | .constant => s0.gotoIdx .smp 0
  | .verbatim => if s.hdr.bs = 0 then s0.finishSubframe else s0.gotoIdx .smp 0
  | .fixed => s0.gotoIdx (if s.order = 0 then .res else .smp) 0
  | .lpc => s0.gotoIdx .smp 0

/-- A subframe header whose fields are all read (R230 to R233): refused with BadWastedBits when no sample bit is left,
else recorded, and the body starts. With `FH_SS = 0` a channel that carries the side signal has one bit, so channel 0 of
right/side is accepted: R232 and decision D14 over the words of R383 and U17 (DEDUCED, log entry 19). -/
def State.acceptHeader (s : State) (kind : SubKind) (order : BitVec 6) (w : Nat) : State :=
  if sampleWidth s.hdr.ss s.hdr.ca s.seq.ch w < 1 then s.raise .badWastedBits 0
  else
    State.startBody
      { s with subs := s.subs.setIfInBounds s.seq.ch { kind := kind, order := order, wasted := BitVec.ofNat 6 w } }

/-- The first partition's or the next one's header, or, when all `2^P` are decoded, what follows the residuals (R262). -/
def State.nextPartition (s : State) : State :=
  if s.seq.part + 1 < 2 ^ s.seq.porder.toNat then
    { s with seq := { s.seq with part := s.seq.part + 1, pos := .part } }
  else s.reconstruct

end Sys2Proof.Machine
end

