-- ==== Sys2Proof/Machine/Command.lean ====
section
/-! DEFINITION. The host commands (format CMD). -/

namespace Sys2Proof.Machine

/-- NEXT (R295): accepted in IDLE, DONE and EOS, ignored in FAULT and BUSY. On acceptance the fault registers are cleared
and the frame procedure (R297) starts at the frame header; the step that issues the command runs it to its end
(`stepWrite`, R392). -/
def execNext (s : State) : Host.Outcome State Fault Refusal :=
  .next
    (if s.status.acceptsNext then { s.goto .frame with err := .none, errInner := 0, status := .busy } else s)

/-- RESET (R296): accepted in every state but BUSY, with the effect of hardware reset (R380). -/
def execReset (s : State) : Host.Outcome State Fault Refusal :=
  .next (if s.status = .busy then s else s.hardReset)

end Sys2Proof.Machine
end

