-- ==== Sys2Proof/Machine/Footer.lean ====
section
/-! DEFINITION. The end of a frame (formats FT.pad, FT). -/

namespace Sys2Proof.Machine

/-- PADBITS: the rest of the partly consumed byte is dropped unexamined (R299, R147). -/
def execPadbits (_count : Nat) (_padding : BitVec 7) (s : State) : Host.Outcome State Fault Refusal :=
  .next (State.goto (s.withStream s.stream.align) .foot)

/-- FOOT: stored in `FT_CRC16`; under `P_CRC16_CHECK` a mismatch with `crc16` is BadChecksum with `ERR_INNER` 16 (R300); else
the frame is counted and the core is DONE (R301). -/
def execFoot (crc16 : BitVec 16) (s : State) : Host.Outcome State Fault Refusal :=
  let s1 := { s with ftCrc16 := crc16 }
  .next
    (if s.params.crc16Check ∧ crc16 ≠ s.dp.crc16 then s1.raise .badChecksum 16
    else s1.frameDone)

end Sys2Proof.Machine
end

