-- ==== Sys2Proof/Machine/Header.lean ====
section
/-! DEFINITION. The elements of the frame header (formats FH, FH.ca, FH.ssc, U8, U8.cont, FH.bsc, FH.rc, FH.crc8), in the
order of R185. Each meaning acts on a state in which the element's bits are consumed (the fetch did that). -/

namespace Sys2Proof.Machine

/-! ### Shared operations -/

/-- The channel assignment (R190, R191): a code above 10 is BadChannelAssignment, else `FH_VAR`, `FH_CA` and `FH_NCH` are
written. -/
def State.channelAssignment (s : State) (ca : BitVec 4) : State :=
  if 10 < ca.toNat then s.raise .badChannelAssignment 0
  else
    State.goto
      { s with hdr := { s.hdr with var := s.seq.fix.var, ca := ca, nch := channelCount ca } } .ssc

/-- A sample size is accepted (R192): written to `FH_SS`. -/
def State.sampleSize (s : State) (v : BitVec 6) : State :=
  State.goto { s with hdr := { s.hdr with ss := v } } .numLead

/-- The number is complete (R193): written to `FH_NUM`. -/
def State.numberDone (s : State) (v : BitVec 36) : State :=
  State.goto { s with hdr := { s.hdr with num := v } } .bsc

/-- A lead byte of a number of `extra` more bytes, with payload `v` (R161). -/
def State.utf8Lead (s : State) (extra : Nat) (v : BitVec 36) : State :=
  if extra = 0 then s.numberDone v
  else { s with seq := { s.seq with num := v, numLeft := extra, pos := .numCont } }

/-- A continuation byte (R161): 6 more bits; after the last one the number is complete. -/
def State.utf8Cont (s : State) (payload : BitVec 6) : State :=
  let v := (s.seq.num <<< 6) + payload.zeroExtend 36
  if s.seq.numLeft ≤ 1 then s.numberDone v
  else { s with seq := { s.seq with num := v, numLeft := s.seq.numLeft - 1 } }

/-- A block size is accepted (R194, R195): written to `FH_BS`. -/
def State.blockSize (s : State) (v : BitVec 17) : State :=
  State.goto { s with hdr := { s.hdr with bs := v } } .rc

/-- A sample rate is accepted (R196, R197): written to `FH_RATE`. -/
def State.sampleRate (s : State) (v : BitVec 20) : State :=
  State.goto { s with hdr := { s.hdr with rate := v } } .crc8

/-! ### FH -/

/-- FRAME: the fixed part passed the sync and reserved-bit checks (R187 to R189, made by the decoder); its fields are held for
the elements that act on them. -/
def execFrame (var : BitVec 1) (bsc rc ca : BitVec 4) (ssc : BitVec 3) (s : State) : Host.Outcome State Fault Refusal :=
  .next
    { s with
      seq :=
        { s.seq with fix := { var := var, bsc := bsc, rc := rc, ca := ca, ssc := ssc }, pos := .ca } }

/-! ### FH.ca -/

/-- CA.0: independent channels (R190). -/
def execCa0 (s : State) : Host.Outcome State Fault Refusal :=
  .next (s.channelAssignment 0)

/-- CA.1: independent channels (R190). -/
def execCa1 (s : State) : Host.Outcome State Fault Refusal :=
  .next (s.channelAssignment 1)

/-- CA.2: independent channels (R190). -/
def execCa2 (s : State) : Host.Outcome State Fault Refusal :=
  .next (s.channelAssignment 2)

/-- CA.3: independent channels (R190). -/
def execCa3 (s : State) : Host.Outcome State Fault Refusal :=
  .next (s.channelAssignment 3)

/-- CA.4: independent channels (R190). -/
def execCa4 (s : State) : Host.Outcome State Fault Refusal :=
  .next (s.channelAssignment 4)

/-- CA.5: independent channels (R190). -/
def execCa5 (s : State) : Host.Outcome State Fault Refusal :=
  .next (s.channelAssignment 5)

/-- CA.6: independent channels (R190). -/
def execCa6 (s : State) : Host.Outcome State Fault Refusal :=
  .next (s.channelAssignment 6)

/-- CA.7: independent channels (R190). -/
def execCa7 (s : State) : Host.Outcome State Fault Refusal :=
  .next (s.channelAssignment 7)

/-- CA.8: left/side (R190). -/
def execCa8 (s : State) : Host.Outcome State Fault Refusal :=
  .next (s.channelAssignment 8)

/-- CA.9: right/side (R190). -/
def execCa9 (s : State) : Host.Outcome State Fault Refusal :=
  .next (s.channelAssignment 9)

/-- CA.10: mid/side (R190). -/
def execCa10 (s : State) : Host.Outcome State Fault Refusal :=
  .next (s.channelAssignment 10)

/-- CA.11: BadChannelAssignment (R190). -/
def execCa11 (s : State) : Host.Outcome State Fault Refusal :=
  .next (s.channelAssignment 11)

/-- CA.12: BadChannelAssignment (R190). -/
def execCa12 (s : State) : Host.Outcome State Fault Refusal :=
  .next (s.channelAssignment 12)

/-- CA.13: BadChannelAssignment (R190). -/
def execCa13 (s : State) : Host.Outcome State Fault Refusal :=
  .next (s.channelAssignment 13)

/-- CA.14: BadChannelAssignment (R190). -/
def execCa14 (s : State) : Host.Outcome State Fault Refusal :=
  .next (s.channelAssignment 14)

/-- CA.15: BadChannelAssignment (R190). -/
def execCa15 (s : State) : Host.Outcome State Fault Refusal :=
  .next (s.channelAssignment 15)

/-! ### FH.ssc -/

/-- SSC.0: the value of `CFG_BPS` as it stands (R192). -/
def execSsc0 (s : State) : Host.Outcome State Fault Refusal :=
  .next (s.sampleSize s.cfgBps)

/-- SSC.1: 8 bits (R192). -/
def execSsc1 (s : State) : Host.Outcome State Fault Refusal :=
  .next (s.sampleSize 8)

/-- SSC.2: 12 bits (R192). -/
def execSsc2 (s : State) : Host.Outcome State Fault Refusal :=
  .next (s.sampleSize 12)

/-- SSC.3: BadSampleSize (R192). -/
def execSsc3 (s : State) : Host.Outcome State Fault Refusal :=
  .next (s.raise .badSampleSize 0)

/-- SSC.4: 16 bits (R192). -/
def execSsc4 (s : State) : Host.Outcome State Fault Refusal :=
  .next (s.sampleSize 16)

/-- SSC.5: 20 bits (R192). -/
def execSsc5 (s : State) : Host.Outcome State Fault Refusal :=
  .next (s.sampleSize 20)

/-- SSC.6: 24 bits (R192). -/
def execSsc6 (s : State) : Host.Outcome State Fault Refusal :=
  .next (s.sampleSize 24)

/-- SSC.7: BadSampleSize (R192). -/
def execSsc7 (s : State) : Host.Outcome State Fault Refusal :=
  .next (s.raise .badSampleSize 0)

/-! ### U8 and U8.cont -/

/-- U8.LEAD1: 7 payload bits, 0 more bytes (R161). -/
def execU8Lead1 (payload : BitVec 7) (s : State) : Host.Outcome State Fault Refusal :=
  .next (s.utf8Lead 0 (payload.zeroExtend 36))

/-- U8.LEAD2: 5 payload bits, 1 more bytes (R161). -/
def execU8Lead2 (payload : BitVec 5) (s : State) : Host.Outcome State Fault Refusal :=
  .next (s.utf8Lead 1 (payload.zeroExtend 36))

/-- U8.LEAD3: 4 payload bits, 2 more bytes (R161). -/
def execU8Lead3 (payload : BitVec 4) (s : State) : Host.Outcome State Fault Refusal :=
  .next (s.utf8Lead 2 (payload.zeroExtend 36))

/-- U8.LEAD4: 3 payload bits, 3 more bytes (R161). -/
def execU8Lead4 (payload : BitVec 3) (s : State) : Host.Outcome State Fault Refusal :=
  .next (s.utf8Lead 3 (payload.zeroExtend 36))

/-- U8.LEAD5: 2 payload bits, 4 more bytes (R161). -/
def execU8Lead5 (payload : BitVec 2) (s : State) : Host.Outcome State Fault Refusal :=
  .next (s.utf8Lead 4 (payload.zeroExtend 36))

/-- U8.LEAD6: 1 payload bits, 5 more bytes (R161). -/
def execU8Lead6 (payload : BitVec 1) (s : State) : Host.Outcome State Fault Refusal :=
  .next (s.utf8Lead 5 (payload.zeroExtend 36))

/-- U8.LEAD7: no payload, 6 more bytes (R161). -/
def execU8Lead7 (s : State) : Host.Outcome State Fault Refusal :=
  .next (s.utf8Lead 6 0)

/-- U8.BADLEAD1: BadUtf8 (R163). -/
def execU8BadLead1 (_ignored : BitVec 6) (s : State) : Host.Outcome State Fault Refusal :=
  .next (s.raise .badUtf8 0)

/-- U8.BADLEAD8: BadUtf8 (R163). -/
def execU8BadLead8 (s : State) : Host.Outcome State Fault Refusal :=
  .next (s.raise .badUtf8 0)

/-- U8.CONT: appends 6 bits (R161). -/
def execU8Cont (payload : BitVec 6) (s : State) : Host.Outcome State Fault Refusal :=
  .next (s.utf8Cont payload)

/-- U8.BADCONT0: BadUtf8 (R162). -/
def execU8BadCont0 (_ignored : BitVec 7) (s : State) : Host.Outcome State Fault Refusal :=
  .next (s.raise .badUtf8 0)

/-- U8.BADCONT3: BadUtf8 (R162). -/
def execU8BadCont3 (_ignored : BitVec 6) (s : State) : Host.Outcome State Fault Refusal :=
  .next (s.raise .badUtf8 0)

/-! ### FH.bsc -/

/-- BSC.0: BadBlockSize (R194). -/
def execBsc0 (s : State) : Host.Outcome State Fault Refusal :=
  .next (s.raise .badBlockSize 0)

/-- BSC.1: the table entry (R195). -/
def execBsc1 (s : State) : Host.Outcome State Fault Refusal :=
  .next (s.blockSize (bsTable 1))

/-- BSC.2: the table entry (R195). -/
def execBsc2 (s : State) : Host.Outcome State Fault Refusal :=
  .next (s.blockSize (bsTable 2))

/-- BSC.3: the table entry (R195). -/
def execBsc3 (s : State) : Host.Outcome State Fault Refusal :=
  .next (s.blockSize (bsTable 3))

/-- BSC.4: the table entry (R195). -/
def execBsc4 (s : State) : Host.Outcome State Fault Refusal :=
  .next (s.blockSize (bsTable 4))

/-- BSC.5: the table entry (R195). -/
def execBsc5 (s : State) : Host.Outcome State Fault Refusal :=
  .next (s.blockSize (bsTable 5))

/-- BSC.6: `bs_tail` + 1 (R194). -/
def execBsc6 (tail : BitVec 8) (s : State) : Host.Outcome State Fault Refusal :=
  .next (s.blockSize (tail.zeroExtend 17 + 1))

/-- BSC.7: `bs_tail` + 1 (R194). -/
def execBsc7 (tail : BitVec 16) (s : State) : Host.Outcome State Fault Refusal :=
  .next (s.blockSize (tail.zeroExtend 17 + 1))

/-- BSC.8: the table entry (R195). -/
def execBsc8 (s : State) : Host.Outcome State Fault Refusal :=
  .next (s.blockSize (bsTable 8))

/-- BSC.9: the table entry (R195). -/
def execBsc9 (s : State) : Host.Outcome State Fault Refusal :=
  .next (s.blockSize (bsTable 9))

/-- BSC.10: the table entry (R195). -/
def execBsc10 (s : State) : Host.Outcome State Fault Refusal :=
  .next (s.blockSize (bsTable 10))

/-- BSC.11: the table entry (R195). -/
def execBsc11 (s : State) : Host.Outcome State Fault Refusal :=
  .next (s.blockSize (bsTable 11))

/-- BSC.12: the table entry (R195). -/
def execBsc12 (s : State) : Host.Outcome State Fault Refusal :=
  .next (s.blockSize (bsTable 12))

/-- BSC.13: the table entry (R195). -/
def execBsc13 (s : State) : Host.Outcome State Fault Refusal :=
  .next (s.blockSize (bsTable 13))

/-- BSC.14: the table entry (R195). -/
def execBsc14 (s : State) : Host.Outcome State Fault Refusal :=
  .next (s.blockSize (bsTable 14))

/-- BSC.15: the table entry (R195). -/
def execBsc15 (s : State) : Host.Outcome State Fault Refusal :=
  .next (s.blockSize (bsTable 15))

/-! ### FH.rc -/

/-- RC.0: the value of `CFG_RATE` as it stands (R197). -/
def execRc0 (s : State) : Host.Outcome State Fault Refusal :=
  .next (s.sampleRate s.cfgRate)

/-- RC.1: the table entry (R197). -/
def execRc1 (s : State) : Host.Outcome State Fault Refusal :=
  .next (s.sampleRate (rateTable 1))

/-- RC.2: the table entry (R197). -/
def execRc2 (s : State) : Host.Outcome State Fault Refusal :=
  .next (s.sampleRate (rateTable 2))

/-- RC.3: the table entry (R197). -/
def execRc3 (s : State) : Host.Outcome State Fault Refusal :=
  .next (s.sampleRate (rateTable 3))

/-- RC.4: the table entry (R197). -/
def execRc4 (s : State) : Host.Outcome State Fault Refusal :=
  .next (s.sampleRate (rateTable 4))

/-- RC.5: the table entry (R197). -/
def execRc5 (s : State) : Host.Outcome State Fault Refusal :=
  .next (s.sampleRate (rateTable 5))

/-- RC.6: the table entry (R197). -/
def execRc6 (s : State) : Host.Outcome State Fault Refusal :=
  .next (s.sampleRate (rateTable 6))

/-- RC.7: the table entry (R197). -/
def execRc7 (s : State) : Host.Outcome State Fault Refusal :=
  .next (s.sampleRate (rateTable 7))

/-- RC.8: the table entry (R197). -/
def execRc8 (s : State) : Host.Outcome State Fault Refusal :=
  .next (s.sampleRate (rateTable 8))

/-- RC.9: the table entry (R197). -/
def execRc9 (s : State) : Host.Outcome State Fault Refusal :=
  .next (s.sampleRate (rateTable 9))

/-- RC.10: the table entry (R197). -/
def execRc10 (s : State) : Host.Outcome State Fault Refusal :=
  .next (s.sampleRate (rateTable 10))

/-- RC.11: the table entry (R197). -/
def execRc11 (s : State) : Host.Outcome State Fault Refusal :=
  .next (s.sampleRate (rateTable 11))

/-- RC.12: `rate_tail` in kHz (R196). -/
def execRc12 (tail : BitVec 8) (s : State) : Host.Outcome State Fault Refusal :=
  .next (s.sampleRate (tail.zeroExtend 20 * 1000))

/-- RC.13: `rate_tail` in Hz (R196). -/
def execRc13 (tail : BitVec 16) (s : State) : Host.Outcome State Fault Refusal :=
  .next (s.sampleRate (tail.zeroExtend 20))

/-- RC.14: `rate_tail` in tens of Hz (R196). -/
def execRc14 (tail : BitVec 16) (s : State) : Host.Outcome State Fault Refusal :=
  .next (s.sampleRate (tail.zeroExtend 20 * 10))

/-- RC.15: BadSampleRate (R196). -/
def execRc15 (s : State) : Host.Outcome State Fault Refusal :=
  .next (s.raise .badSampleRate 0)

/-! ### FH.crc8 -/

/-- CRC8 (R199): stored in `FH_CRC8` and compared with `crc8`, which holds the expected value since its tee is off; a mismatch
is BadChecksum with `ERR_INNER` 8, else the first subframe follows. -/
def execCrc8 (stored : BitVec 8) (s : State) : Host.Outcome State Fault Refusal :=
  let s1 := { s with hdr := { s.hdr with crc8 := stored } }
  .next (if stored = s.dp.crc8 then s1.gotoSubframe 0 else s1.raise .badChecksum 8)

end Sys2Proof.Machine
end

