-- ==== Sys2Proof/Machine/Residual.lean ====
section
/-! DEFINITION. The elements of a residual section (formats RES, PART4, PART5, RICE). -/

namespace Sys2Proof.Machine

/-! ### Shared operations -/

/-- The residual header (R261, R262): method 2 or 3 is BadResidualMethod; an inexact split is BadPartition (R266 (a));
else the first partition follows, with no residual written yet. -/
def State.residualHeader (s : State) (method : BitVec 2) (porder : BitVec 4) : State :=
  if 1 < method.toNat then s.raise .badResidualMethod 0
  else if 0 < porder.toNat ∧ s.hdr.bs.toNat % 2 ^ porder.toNat ≠ 0 then s.raise .badPartition 0
  else
    { s with
      files := { s.files with r := [] }
      seq := { s.seq with method := method.truncate 1, porder := porder, part := 0, pos := .part } }

/-- A partition header with an `mBits`-bit parameter (R262): the all-ones parameter is UnsupportedEscape (R264), a negative
length is BadPartition (R266 (b)); else its codewords follow, or, with length 0, the next partition. -/
def State.partition (s : State) (mBits : Nat) (m : BitVec 5) : State :=
  let n := partitionLength s.hdr.bs s.order s.seq.porder s.seq.part
  if m.toNat = 2 ^ mBits - 1 then s.raise .unsupportedEscape 0
  else if n < 0 then s.raise .badPartition 0
  else
    let s1 := { s with seq := { s.seq with m := m, todo := n.toNat, pos := .rice } }
    if n = 0 then s1.nextPartition else s1

/-- One residual of value `v` (R262); after the partition's last one the next partition follows. -/
def State.residual (s : State) (v : Word) : State :=
  let s1 :=
    { s with
      files := { s.files with r := s.files.r ++ [v] }
      seq := { s.seq with todo := s.seq.todo - 1 } }
  if s.seq.todo ≤ 1 then s1.nextPartition else s1

/-! ### RES, PART4, PART5, RICE -/

/-- RES.RICE4: `M_bits` is 4 (R261). -/
def execResRice4 (porder : BitVec 4) (s : State) : Host.Outcome State Fault Refusal :=
  .next (s.residualHeader 0 porder)

/-- RES.RICE5: `M_bits` is 5 (R261). -/
def execResRice5 (porder : BitVec 4) (s : State) : Host.Outcome State Fault Refusal :=
  .next (s.residualHeader 1 porder)

/-- RES.BADMETHOD: BadResidualMethod, before the partition order is read (R261). -/
def execResBadMethod (methodLow : BitVec 1) (s : State) : Host.Outcome State Fault Refusal :=
  .next (s.residualHeader (1#1 ++ methodLow) 0)

/-- PART4: a 4-bit Rice parameter (R263). -/
def execPart4 (m : BitVec 4) (s : State) : Host.Outcome State Fault Refusal :=
  .next (s.partition 4 (m.zeroExtend 5))

/-- PART4.ESC: UnsupportedEscape (R264). -/
def execPart4Esc (s : State) : Host.Outcome State Fault Refusal :=
  .next (s.partition 4 15)

/-- PART5: a 5-bit Rice parameter (R263). -/
def execPart5 (m : BitVec 5) (s : State) : Host.Outcome State Fault Refusal :=
  .next (s.partition 5 m)

/-- PART5.ESC: UnsupportedEscape (R264). -/
def execPart5Esc (s : State) : Host.Outcome State Fault Refusal :=
  .next (s.partition 5 31)

/-- RICE: the codeword as a signed value is the next residual (R267, R268). -/
def execRice (m zeros : Nat) (remainder : Word) (s : State) : Host.Outcome State Fault Refusal :=
  .next (s.residual (unzigzag (riceFold m zeros remainder)))

end Sys2Proof.Machine
end

