-- ==== Sys2Proof/Machine/Subframe.lean ====
section
/-! DEFINITION. The elements of a subframe before its residual section (formats SFH, SFH.wsuffix, SMP, LPH, LPC.coef). -/

namespace Sys2Proof.Machine

/-! ### Shared operations -/

/-- A subframe header's padding bit, type code and `wflag` (R221): a padding bit of 1 is BadSubframeType under
`P_PAD_STRICT` (R223), a reserved type code is BadSubframeType (R224); with `wflag` 1 the suffix follows, else `w` is 0
(R226). -/
def State.subframeHeader (s : State) (pad : BitVec 1) (t : BitVec 6) (wflag : BitVec 1) : State :=
  if pad = 1 ∧ s.params.padStrict then s.raise .badSubframeType 0
  else
    match typeOf t with
    | none => s.raise .badSubframeType 0
    | some (kind, p) =>
      if wflag = 0 then s.acceptHeader kind p 0
      else { s with seq := { s.seq with kind := kind, order := p, pos := .wsuffix } }

/-- One sample field of value `v` (R110): the CONSTANT value (R236), a VERBATIM sample (R237) or a warm-up sample (R238,
R244), and what follows it. -/
def State.sample (s : State) (v : Word) : State :=
  let i := s.seq.idx
  match s.cur.kind with
  | .constant =>
    State.finishSubframe { s with seq := { s.seq with x := List.replicate s.hdr.bs.toNat v } }
  | .verbatim =>
    let s1 := { s with seq := { s.seq with x := s.seq.x ++ [v] } }
    if i + 1 < s.hdr.bs.toNat then s1.gotoIdx .smp (i + 1) else s1.finishSubframe
  | .fixed =>
    let s1 := { s with files := { s.files with w := s.files.w.setIfInBounds i v } }
    if i + 1 < s.order then s1.gotoIdx .smp (i + 1) else s1.gotoIdx .res 0
  | .lpc =>
    let s1 := { s with files := { s.files with w := s.files.w.setIfInBounds i v } }
    if i + 1 < s.order then s1.gotoIdx .smp (i + 1) else s1.gotoIdx .lph 0

/-- The LPC header (R244): precision code 15 is BadLpcPrecision (R245), a negative 5-bit shift is BadLpcShift (R246), else
`LPC_SHIFT` is written and the coefficients follow. -/
def State.lpcHeader (s : State) (prec : BitVec 4) (shift : BitVec 5) : State :=
  if prec = 15 then s.raise .badLpcPrecision 0
  else if shift.toInt < 0 then s.raise .badLpcShift 0
  else
    { s with
      files := { s.files with shift := shift.truncate 4 }
      seq := { s.seq with prec := prec, idx := 0, pos := .coef } }

/-- A coefficient of value `v` (R247); after the last one the residual section follows. -/
def State.coefficient (s : State) (v : Word) : State :=
  let i := s.seq.idx
  let s1 := { s with files := { s.files with c := s.files.c.setIfInBounds i v } }
  if i + 1 < s.order then s1.gotoIdx .coef (i + 1) else s1.gotoIdx .res 0

/-! ### SFH -/

/-- SUB.CONSTANT: its header (R236, R221). -/
def execSubConstant (pad wflag : BitVec 1) (s : State) : Host.Outcome State Fault Refusal :=
  .next (s.subframeHeader pad 0b000000 wflag)

/-- SUB.VERBATIM: its header (R237, R221). -/
def execSubVerbatim (pad wflag : BitVec 1) (s : State) : Host.Outcome State Fault Refusal :=
  .next (s.subframeHeader pad 0b000001 wflag)

/-- SUB.FIXED0: its header (R239, R221). -/
def execSubFixed0 (pad wflag : BitVec 1) (s : State) : Host.Outcome State Fault Refusal :=
  .next (s.subframeHeader pad 0b001000 wflag)

/-- SUB.FIXED1: its header (R240, R221). -/
def execSubFixed1 (pad wflag : BitVec 1) (s : State) : Host.Outcome State Fault Refusal :=
  .next (s.subframeHeader pad 0b001001 wflag)

/-- SUB.FIXED2: its header (R241, R221). -/
def execSubFixed2 (pad wflag : BitVec 1) (s : State) : Host.Outcome State Fault Refusal :=
  .next (s.subframeHeader pad 0b001010 wflag)

/-- SUB.FIXED3: its header (R242, R221). -/
def execSubFixed3 (pad wflag : BitVec 1) (s : State) : Host.Outcome State Fault Refusal :=
  .next (s.subframeHeader pad 0b001011 wflag)

/-- SUB.FIXED4: its header (R243, R221). -/
def execSubFixed4 (pad wflag : BitVec 1) (s : State) : Host.Outcome State Fault Refusal :=
  .next (s.subframeHeader pad 0b001100 wflag)

/-- SUB.LPC: its header (R244, R221). -/
def execSubLpc (pad : BitVec 1) (orderMinus1 : BitVec 5) (wflag : BitVec 1) (s : State) : Host.Outcome State Fault Refusal :=
  .next (s.subframeHeader pad (1#1 ++ orderMinus1) wflag)

/-- SUB.RSVD_00001x: BadSubframeType after 7 bits, `wflag` is not read (R224). -/
def execSubRsvd00001x (pad tLow : BitVec 1) (s : State) : Host.Outcome State Fault Refusal :=
  .next (s.subframeHeader pad (0b00001#5 ++ tLow) 0)

/-- SUB.RSVD_0001xx: BadSubframeType after 7 bits, `wflag` is not read (R224). -/
def execSubRsvd0001xx (pad : BitVec 1) (tLow : BitVec 2) (s : State) : Host.Outcome State Fault Refusal :=
  .next (s.subframeHeader pad (0b0001#4 ++ tLow) 0)

/-- SUB.RSVD_001101: BadSubframeType after 7 bits, `wflag` is not read (R224). -/
def execSubRsvd001101 (pad : BitVec 1) (s : State) : Host.Outcome State Fault Refusal :=
  .next (s.subframeHeader pad 0b001101 0)

/-- SUB.RSVD_00111x: BadSubframeType after 7 bits, `wflag` is not read (R224). -/
def execSubRsvd00111x (pad tLow : BitVec 1) (s : State) : Host.Outcome State Fault Refusal :=
  .next (s.subframeHeader pad (0b00111#5 ++ tLow) 0)

/-- SUB.RSVD_01xxxx: BadSubframeType after 7 bits, `wflag` is not read (R224). -/
def execSubRsvd01xxxx (pad : BitVec 1) (tLow : BitVec 4) (s : State) : Host.Outcome State Fault Refusal :=
  .next (s.subframeHeader pad (0b01#2 ++ tLow) 0)

/-- SUB.BADPAD: BadSubframeType after 7 bits (R223). The decoder gives this row only under `P_PAD_STRICT`. -/
def execSubBadPad (_t : BitVec 6) (s : State) : Host.Outcome State Fault Refusal :=
  .next (s.raise .badSubframeType 0)

/-! ### SFH.wsuffix, SMP, LPH, LPC.coef -/

/-- WSUFFIX: `w` is the zeros plus one (R226); the header is then complete (R230 to R233). -/
def execWsuffix (zeros : Nat) (s : State) : Host.Outcome State Fault Refusal :=
  .next (s.acceptHeader s.seq.kind s.seq.order (zeros + 1))

/-- SMP: the field as a signed value (R144) is the next sample (R110). -/
def execSmp (width : Nat) (field : Word) (s : State) : Host.Outcome State Fault Refusal :=
  .next (s.sample (sext width field))

/-- LPH: precision and a shift of 0..15 (R244). -/
def execLph (prec shift : BitVec 4) (s : State) : Host.Outcome State Fault Refusal :=
  .next (s.lpcHeader prec (0#1 ++ shift))

/-- LPH.BADPREC: BadLpcPrecision, before the shift is read (R245). -/
def execLphBadPrec (s : State) : Host.Outcome State Fault Refusal :=
  .next (s.lpcHeader 15 0)

/-- LPH.BADSHIFT: BadLpcShift (R246). -/
def execLphBadShift (prec shiftLow : BitVec 4) (s : State) : Host.Outcome State Fault Refusal :=
  .next (s.lpcHeader prec (1#1 ++ shiftLow))

/-- COEF: the field as a signed value is the next coefficient (R247). -/
def execCoef (width : Nat) (field : Word) (s : State) : Host.Outcome State Fault Refusal :=
  .next (s.coefficient (sext width field))

end Sys2Proof.Machine
end

