-- ==== Sys2Proof/Machine/Dispatch.lean ====
section
/-! DEFINITION. One arm per instruction: its meaning. -/

namespace Sys2Proof.Machine

def exec (i : Instr) (s : State) : Host.Outcome State Fault Refusal :=
  match i with
  | .next => Sys2Proof.Machine.execNext s
  | .reset => Sys2Proof.Machine.execReset s
  | .frame var bsc rc ca ssc => Sys2Proof.Machine.execFrame var bsc rc ca ssc s
  | .bsc0 => Sys2Proof.Machine.execBsc0 s
  | .bsc1 => Sys2Proof.Machine.execBsc1 s
  | .bsc2 => Sys2Proof.Machine.execBsc2 s
  | .bsc3 => Sys2Proof.Machine.execBsc3 s
  | .bsc4 => Sys2Proof.Machine.execBsc4 s
  | .bsc5 => Sys2Proof.Machine.execBsc5 s
  | .bsc6 tail => Sys2Proof.Machine.execBsc6 tail s
  | .bsc7 tail => Sys2Proof.Machine.execBsc7 tail s
  | .bsc8 => Sys2Proof.Machine.execBsc8 s
  | .bsc9 => Sys2Proof.Machine.execBsc9 s
  | .bsc10 => Sys2Proof.Machine.execBsc10 s
  | .bsc11 => Sys2Proof.Machine.execBsc11 s
  | .bsc12 => Sys2Proof.Machine.execBsc12 s
  | .bsc13 => Sys2Proof.Machine.execBsc13 s
  | .bsc14 => Sys2Proof.Machine.execBsc14 s
  | .bsc15 => Sys2Proof.Machine.execBsc15 s
  | .rc0 => Sys2Proof.Machine.execRc0 s
  | .rc1 => Sys2Proof.Machine.execRc1 s
  | .rc2 => Sys2Proof.Machine.execRc2 s
  | .rc3 => Sys2Proof.Machine.execRc3 s
  | .rc4 => Sys2Proof.Machine.execRc4 s
  | .rc5 => Sys2Proof.Machine.execRc5 s
  | .rc6 => Sys2Proof.Machine.execRc6 s
  | .rc7 => Sys2Proof.Machine.execRc7 s
  | .rc8 => Sys2Proof.Machine.execRc8 s
  | .rc9 => Sys2Proof.Machine.execRc9 s
  | .rc10 => Sys2Proof.Machine.execRc10 s
  | .rc11 => Sys2Proof.Machine.execRc11 s
  | .rc12 tail => Sys2Proof.Machine.execRc12 tail s
  | .rc13 tail => Sys2Proof.Machine.execRc13 tail s
  | .rc14 tail => Sys2Proof.Machine.execRc14 tail s
  | .rc15 => Sys2Proof.Machine.execRc15 s
  | .ca0 => Sys2Proof.Machine.execCa0 s
  | .ca1 => Sys2Proof.Machine.execCa1 s
  | .ca2 => Sys2Proof.Machine.execCa2 s
  | .ca3 => Sys2Proof.Machine.execCa3 s
  | .ca4 => Sys2Proof.Machine.execCa4 s
  | .ca5 => Sys2Proof.Machine.execCa5 s
  | .ca6 => Sys2Proof.Machine.execCa6 s
  | .ca7 => Sys2Proof.Machine.execCa7 s
  | .ca8 => Sys2Proof.Machine.execCa8 s
  | .ca9 => Sys2Proof.Machine.execCa9 s
  | .ca10 => Sys2Proof.Machine.execCa10 s
  | .ca11 => Sys2Proof.Machine.execCa11 s
  | .ca12 => Sys2Proof.Machine.execCa12 s
  | .ca13 => Sys2Proof.Machine.execCa13 s
  | .ca14 => Sys2Proof.Machine.execCa14 s
  | .ca15 => Sys2Proof.Machine.execCa15 s
  | .ssc0 => Sys2Proof.Machine.execSsc0 s
  | .ssc1 => Sys2Proof.Machine.execSsc1 s
  | .ssc2 => Sys2Proof.Machine.execSsc2 s
  | .ssc3 => Sys2Proof.Machine.execSsc3 s
  | .ssc4 => Sys2Proof.Machine.execSsc4 s
  | .ssc5 => Sys2Proof.Machine.execSsc5 s
  | .ssc6 => Sys2Proof.Machine.execSsc6 s
  | .ssc7 => Sys2Proof.Machine.execSsc7 s
  | .u8Lead1 payload => Sys2Proof.Machine.execU8Lead1 payload s
  | .u8Lead2 payload => Sys2Proof.Machine.execU8Lead2 payload s
  | .u8Lead3 payload => Sys2Proof.Machine.execU8Lead3 payload s
  | .u8Lead4 payload => Sys2Proof.Machine.execU8Lead4 payload s
  | .u8Lead5 payload => Sys2Proof.Machine.execU8Lead5 payload s
  | .u8Lead6 payload => Sys2Proof.Machine.execU8Lead6 payload s
  | .u8Lead7 => Sys2Proof.Machine.execU8Lead7 s
  | .u8BadLead1 ignored => Sys2Proof.Machine.execU8BadLead1 ignored s
  | .u8BadLead8 => Sys2Proof.Machine.execU8BadLead8 s
  | .u8Cont payload => Sys2Proof.Machine.execU8Cont payload s
  | .u8BadCont0 ignored => Sys2Proof.Machine.execU8BadCont0 ignored s
  | .u8BadCont3 ignored => Sys2Proof.Machine.execU8BadCont3 ignored s
  | .crc8 stored => Sys2Proof.Machine.execCrc8 stored s
  | .subConstant pad wflag => Sys2Proof.Machine.execSubConstant pad wflag s
  | .subVerbatim pad wflag => Sys2Proof.Machine.execSubVerbatim pad wflag s
  | .subFixed0 pad wflag => Sys2Proof.Machine.execSubFixed0 pad wflag s
  | .subFixed1 pad wflag => Sys2Proof.Machine.execSubFixed1 pad wflag s
  | .subFixed2 pad wflag => Sys2Proof.Machine.execSubFixed2 pad wflag s
  | .subFixed3 pad wflag => Sys2Proof.Machine.execSubFixed3 pad wflag s
  | .subFixed4 pad wflag => Sys2Proof.Machine.execSubFixed4 pad wflag s
  | .subLpc pad orderMinus1 wflag => Sys2Proof.Machine.execSubLpc pad orderMinus1 wflag s
  | .subRsvd00001x pad tLow => Sys2Proof.Machine.execSubRsvd00001x pad tLow s
  | .subRsvd0001xx pad tLow => Sys2Proof.Machine.execSubRsvd0001xx pad tLow s
  | .subRsvd001101 pad => Sys2Proof.Machine.execSubRsvd001101 pad s
  | .subRsvd00111x pad tLow => Sys2Proof.Machine.execSubRsvd00111x pad tLow s
  | .subRsvd01xxxx pad tLow => Sys2Proof.Machine.execSubRsvd01xxxx pad tLow s
  | .subBadPad t => Sys2Proof.Machine.execSubBadPad t s
  | .wsuffix zeros => Sys2Proof.Machine.execWsuffix zeros s
  | .smp width field => Sys2Proof.Machine.execSmp width field s
  | .lph prec shift => Sys2Proof.Machine.execLph prec shift s
  | .lphBadPrec => Sys2Proof.Machine.execLphBadPrec s
  | .lphBadShift prec shiftLow => Sys2Proof.Machine.execLphBadShift prec shiftLow s
  | .coef width field => Sys2Proof.Machine.execCoef width field s
  | .resRice4 porder => Sys2Proof.Machine.execResRice4 porder s
  | .resRice5 porder => Sys2Proof.Machine.execResRice5 porder s
  | .resBadMethod methodLow => Sys2Proof.Machine.execResBadMethod methodLow s
  | .part4 m => Sys2Proof.Machine.execPart4 m s
  | .part4Esc => Sys2Proof.Machine.execPart4Esc s
  | .part5 m => Sys2Proof.Machine.execPart5 m s
  | .part5Esc => Sys2Proof.Machine.execPart5Esc s
  | .rice m zeros remainder => Sys2Proof.Machine.execRice m zeros remainder s
  | .padbits count padding => Sys2Proof.Machine.execPadbits count padding s
  | .foot crc16 => Sys2Proof.Machine.execFoot crc16 s

end Sys2Proof.Machine
end

