-- ==== Sys2Proof/Machine/HostPort.lean ====
section
/-! DEFINITION. The register space as the host sees it (R26 to R38, R76). -/

namespace Sys2Proof.Machine

/-- `v` in the low bits, 0 above (file 10, section 4). -/
def zext64 {n : Nat} (v : BitVec n) : Word := v.zeroExtend 64

/-- The channel and index that `D_SEL` selects (R38). -/
def State.selChannel (s : State) : Nat := (s.dSel.extractLsb' 0 3).toNat
def State.selIndex (s : State) : Nat := (s.dSel.extractLsb' 16 16).toNat

/-- The bits of register 32 + c (R34). -/
def recordBits (r : SubRecord) : Word :=
  zext64 (kindCode r.kind) ||| (zext64 r.order <<< 8) ||| (zext64 r.wasted <<< 16)

/-- What register `n` holds: its fields at their places, 0 elsewhere; `CMD` and the numbers without a register read 0
(R28, R76). -/
def State.regValue (s : State) (n : Nat) : Word :=
  match n with
  | 0 => zext64 s.cfgRate
  | 1 => zext64 s.cfgBps
  | 3 => zext64 s.status.code ||| (zext64 (errCode s.err) <<< 8)
  | 4 => zext64 s.errInner
  | 5 => s.frameCount
  | 6 => zext64 s.hdr.var
  | 7 => zext64 s.hdr.bs
  | 8 => zext64 s.hdr.rate
  | 9 => zext64 s.hdr.ca ||| (zext64 s.hdr.nch <<< 8)
  | 10 => zext64 s.hdr.ss
  | 11 => zext64 s.hdr.num
  | 12 => zext64 s.hdr.crc8
  | 13 => zext64 s.ftCrc16
  | 16 => s.dp.srcPos
  | 17 => zext64 s.dp.brCur ||| (BitVec.ofNat 64 (s.dp.brN % 8) <<< 8)
  | 18 => zext64 s.dp.crc8 ||| (zext64 s.dp.crc16 <<< 16)
  | 64 => zext64 s.dSel
  | 65 => (memRead s.d (sampleAddr s.selChannel s.selIndex)).getD 0
  | n => if 32 ≤ n ∧ n < 40 then recordBits (s.sub (n - 32)) else 0

/-- The bits of register `n` that a field occupies: the others read 0 whatever the field's value. -/
def fieldMask (n : Nat) : Word :=
  match n with
  | 6 => 0x1
  | 7 => 0x1FFFF
  | 8 => 0xFFFFF
  | 9 => 0xF0F
  | 10 => 0x3F
  | 11 => 0xFFFFFFFFF
  | 12 => 0xFF
  | 13 => 0xFFFF
  | 65 => -1
  | n => if 32 ≤ n ∧ n < 40 then 0x3F3F03 else 0

/-- Whether what register `n` holds is specified while STATE is not BUSY. The header registers are in DONE (R33), and
`FH_CRC8` in FAULT after a CRC-8 mismatch (R342, R346); the record of channel `c` in DONE for `c < FH_NCH` (R34);
`FT_CRC16` in DONE and in FAULT after a CRC-16 mismatch (R35); an element of `D` in DONE for `c < FH_NCH`, `i < FH_BS`
(R38). In IDLE header registers, records and `FT_CRC16` hold their reset values (R40; log entry 7). Every other register is
specified; in FAULT that is DEDUCED for `br_cur`, `CFG_RATE`, `CFG_BPS` and `D_SEL`, which R346 does not list (log entry 21),
as is `FH_CRC8` after a CRC-8 mismatch, which R33 does not except (log entry 20). -/
def State.specified (s : State) (n : Nat) : Bool :=
  let fresh := s.status = .idle ∨ s.status = .done
  let checksum (info : BitVec 32) := s.status = .fault ∧ s.err = .badChecksum ∧ s.errInner = info
  match n with
  | 6 => fresh
  | 7 => fresh
  | 8 => fresh
  | 9 => fresh
  | 10 => fresh
  | 11 => fresh
  | 12 => fresh ∨ checksum 8
  | 13 => fresh ∨ checksum 16
  | 65 =>
    s.status = .done ∧ s.selChannel < s.hdr.nch.toNat ∧ s.selIndex < s.hdr.bs.toNat ∧
      (memRead s.d (sampleAddr s.selChannel s.selIndex)).isSome
  | n =>
    if 32 ≤ n ∧ n < 40 then s.status = .idle ∨ (s.status = .done ∧ n - 32 < s.hdr.nch.toNat) else true

/-- The value a read of register `n` returns. While BUSY everything but the STATE field is a free value (R390, U9); an
unspecified register is a free value in its field's bits (U3, U4). -/
def State.readValue (s : State) (n : Nat) : Word :=
  let free := Config.freeRead s.freeCount
  if s.status = .busy then
    if n = 3 then (free &&& ~~~(7 : Word)) ||| zext64 s.status.code else free
  else if s.specified n then s.regValue n
  else free &&& fieldMask n

/-- A host read of register `n` (R76): no side effect on the core. -/
def State.hostRead (s : State) (n : Nat) : State :=
  { s with hostData := s.readValue n, freeCount := s.freeCount + 1 }

/-- A host write of `v` to register `n` other than a command (R26, R27, R38, R76): ignored while BUSY (R390) and in FAULT
(R306; log entry 8), and by every register that is not writable. -/
def State.hostWrite (s : State) (n : Nat) (v : Word) : State :=
  if s.status.acceptsWrites then
    match n with
    | 0 => { s with cfgRate := v.truncate 20 }
    | 1 => { s with cfgBps := v.truncate 6 }
    | 64 => { s with dSel := v.truncate 32 &&& 0xFFFF0007#32 }
    | _ => s
  else s

/-- The command a register write issues (R28, R125): bits 1:0 of a write to register 2. -/
def commandOfWrite (n : Nat) (v : Word) : Option Instr :=
  if n = 2 then commandOf (v.truncate 2) else none

end Sys2Proof.Machine
end

