-- ==== Sys2Proof/Machine/Element.lean ====
section
/-! DEFINITION. What one step does. The host's next access comes first. A NEXT is one step (R392): the command is accepted
and its elements run one after another until `STATE` is not BUSY. A step from a BUSY state, which no run shows, is one
element. Otherwise nothing happens (R364). -/

namespace Sys2Proof.Machine

/-- Go on from a next state; a stop stays. -/
def andThen (o : Host.Outcome State Fault Refusal) (f : State → Host.Outcome State Fault Refusal) :
    Host.Outcome State Fault Refusal :=
  match o with
  | .next t => f t
  | .fault r => .fault r
  | .refused r => .refused r

/-- One element (R304): opened, decoded with its bits consumed, executed. A rejection by name raises the fault it names
(R187 to R189); an end of input inside the element raises what R142 says. -/
def stepElement (s : State) : Host.Outcome State Fault Refusal :=
  if s.sourceFits then
    let s1 := s.openElement
    match s1.fetch with
    | .instr i r => exec i (s1.withStream r)
    | .illegal k r => .next ((s1.withStream r).raise k 0)
    | .stopped r => .next ((s1.withStream r).endOfInput (s.seq.pos = .frame ∧ s.src.bytes = []))
    | .noCommand r => .next (s1.withStream r)
    | .badWidth n => .refused (.readWidth n)
  else .fault .sourceTooLong

/-- The frame procedure (R297) from the element at the position on: elements one after another until `STATE` is not BUSY,
at most `fuel` of them. -/
def runFrame : Nat → State → Host.Outcome State Fault Refusal
  | 0, s => .next s
  | fuel + 1, s => if s.status = .busy then andThen (stepElement s) (runFrame fuel) else .next s

/-- More elements than a NEXT has left: every element takes a bit, but for the four header codes, the padding and the one
that meets the end of the source. -/
def State.elementBound (s : State) : Nat := s.stream.bitsLeft + 8

/-- What the core does of itself: an element while BUSY, else nothing (R364). -/
def stepCore (s : State) : Host.Outcome State Fault Refusal :=
  if s.status = .busy then stepElement s else .next s

/-- A host write (R28): a command is executed, any other write is a register write. An accepted NEXT runs to its end in
the same step (R295, R392). -/
def stepWrite (n : Nat) (v : Word) (s : State) : Host.Outcome State Fault Refusal :=
  match commandOfWrite n v with
  | some i => if s.status = .busy then exec i s else andThen (exec i s) fun t => runFrame t.elementBound t
  | none => .next (s.hostWrite n v)

/-- One step. The host's accesses are taken in order; a poll is over once `STATE` is not BUSY (R390). -/
def stepMachine (s : State) : Host.Outcome State Fault Refusal :=
  match s.host with
  | [] => stepCore s
  | .poll :: rest => if s.status = .busy then stepElement s else .next { s with host := rest }
  | .write n v :: rest => stepWrite n v { s with host := rest }
  | .read n :: rest => .next (State.hostRead { s with host := rest } n)
  | .resetLine :: rest => .next (State.hardReset { s with host := rest })

/-- The position at which a table word of format `f` is fetched, with the code or selector the position needs. -/
def placeFormat (f : Format) (w : Nat) (q : Seq) : Seq :=
  match f with
  | .cmd => q
  | .fh => { q with pos := .frame }
  | .bsc => { q with pos := .bsc, fix := { q.fix with bsc := BitVec.ofNat 4 w } }
  | .rc => { q with pos := .rc, fix := { q.fix with rc := BitVec.ofNat 4 w } }
  | .ca => { q with pos := .ca, fix := { q.fix with ca := BitVec.ofNat 4 w } }
  | .ssc => { q with pos := .ssc, fix := { q.fix with ssc := BitVec.ofNat 3 w } }
  | .u8 => { q with pos := .numLead }
  | .u8cont => { q with pos := .numCont }
  | .crc8 => { q with pos := .crc8 }
  | .sfh => { q with pos := .subHdr }
  | .wsuffix => { q with pos := .wsuffix }
  | .smp _ => { q with pos := .smp }
  | .lph => { q with pos := .lph }
  | .coef _ => { q with pos := .coef }
  | .res => { q with pos := .res }
  | .part4 => { q with pos := .part, method := 0 }
  | .part5 => { q with pos := .part, method := 1 }
  | .rice _ => { q with pos := .rice }
  | .pad => { q with pos := .pad }
  | .ft => { q with pos := .foot }

/-- The bits of a table word that are still in the stream when its element is fetched: none for a header code, which was
read with the fixed part. -/
def streamWidth (f : Format) (width : Nat) : Nat :=
  match f with
  | .bsc => 0
  | .rc => 0
  | .ca => 0
  | .ssc => 0
  | _ => width

end Sys2Proof.Machine
end

