-- ==== Sys2Proof/Machine/Step.lean ====
section
/-! DEFINITION. The step of the machine, and the placing of one table word for it. -/

namespace Sys2Proof.Machine

/-- One step (R304, R364, R390, R395). -/
def step (s : State) : Host.Outcome State Fault Refusal := stepMachine s

/-- `s` with the table word placed so that the next step runs it (log entry 9): a command as the host's next write, an
element as the next bits of the source, with the core BUSY at the position of its format. -/
def State.withFetchWord (s : State) (nbits w : Nat) : State :=
  match tableFormat nbits w with
  | none => s
  | some (.cmd, _) => { s with host := [.write 2 (BitVec.ofNat 64 w)] }
  | some (f, width) =>
    { s.withStream (wordStream (streamWidth f width) w s.stream) with
      status := .busy
      seq := placeFormat f w s.seq
      params := { s.params with padStrict := true }
      host := [] }

end Sys2Proof.Machine
end

