-- ==== Sys2Proof/Safety.lean ====
section
/-! DEFINITION. What holds of every state a run can reach: the invariant of the machine, in parts, and the relations that
claims about runs are stated in. -/

namespace Sys2Proof.Machine

/-- The kinds the core can raise (R340, R341). -/
def coreRaises : ErrKind → Bool
  | .none => false
  | .badMagic => false
  | .missingStreamInfo => false
  | .invalidBlockType => false
  | .endOfStream => false
  | .badSampleRate => true
  | .badSync => true
  | .badReserved => true
  | .badChannelAssignment => true
  | .badSampleSize => true
  | .badBlockSize => true
  | .badUtf8 => true
  | .badChecksum => true
  | .badSubframeType => true
  | .badLpcPrecision => true
  | .badResidualMethod => true
  | .unsupportedEscape => true
  | .unexpectedEof => true
  | .ioError => true
  | .badWastedBits => true
  | .badLpcShift => true
  | .badPartition => true

/-- `ERR` and `ERR_INNER` fit `STATE` (R30, R31, R302, R342). -/
def State.errOk (s : State) : Prop :=
  match s.status with
  | .idle => s.err = .none ∧ s.errInner = 0
  | .busy => s.err = .none ∧ s.errInner = 0
  | .done => s.err = .none ∧ s.errInner = 0
  | .eos => s.err = .endOfStream ∧ s.errInner = 0
  | .fault =>
    coreRaises s.err = true ∧ (s.err = .badChecksum → s.errInner = 8 ∨ s.errInner = 16) ∧
      (s.err ≠ .badChecksum → s.err ≠ .ioError → s.errInner = 0)

/-- `D` keeps its canonical form, and no address lies beyond `D[7][65535]` (R38). -/
def State.memOk (s : State) : Prop := memWf s.d = true ∧ ∀ e ∈ s.d, e.1 < Config.maxChannels * Config.maxBlock

/-- Every sample of channel `c` is written. -/
def State.covered (s : State) (c : Nat) : Prop :=
  ∀ i < s.hdr.bs.toNat, (memRead s.d (sampleAddr c i)).isSome = true

/-- Kind and order of a subframe type code (R109). -/
def kindOk (kind : SubKind) (order : BitVec 6) : Bool :=
  match kind with
  | .constant => order.toNat = 0
  | .verbatim => order.toNat = 0
  | .fixed => order.toNat ≤ 4
  | .lpc => 1 ≤ order.toNat && order.toNat ≤ 32

/-- The header's channel count belongs to its channel assignment (R190). -/
def State.channelsOk (s : State) : Prop := s.hdr.ca.toNat ≤ 10 ∧ s.hdr.nch = channelCount s.hdr.ca

/-- The block size is in its range (R202). -/
def State.blockOk (s : State) : Prop := 1 ≤ s.hdr.bs.toNat ∧ s.hdr.bs.toNat ≤ Config.maxBlock

/-- The frame header is complete (R202): channels, block size, and the CRC-8 that `crc8` still holds (R178). -/
def State.headerOk (s : State) : Prop := s.channelsOk ∧ s.blockOk ∧ s.hdr.crc8 = s.dp.crc8

/-- At the head of a subframe: the header is complete and the channels before this one are written. -/
def State.subOk (s : State) : Prop :=
  s.headerOk ∧ s.seq.ch < s.hdr.nch.toNat ∧ ∀ c < s.seq.ch, s.covered c

/-- In a subframe's body: its record holds an accepted header (R232, R233). -/
def State.bodyOk (s : State) : Prop :=
  s.subOk ∧ kindOk s.cur.kind s.cur.order = true ∧
    1 ≤ sampleWidth s.hdr.ss s.hdr.ca s.seq.ch s.cur.wasted.toNat

/-- The kind is one with a predictor. -/
def State.predictive (s : State) : Prop := s.cur.kind = .fixed ∨ s.cur.kind = .lpc

/-- A residual section is being decoded: its partition order divides the block (R266) and the partition exists. -/
def State.residualOk (s : State) : Prop :=
  s.bodyOk ∧ s.predictive ∧ s.hdr.bs.toNat % 2 ^ s.seq.porder.toNat = 0 ∧ s.seq.part < 2 ^ s.seq.porder.toNat

/-- The tees at a position (R25): `tee8` is on from the header's start to the CRC-8 field, `tee16` to the footer. -/
def State.teesAre (s : State) (t8 t16 : Bool) : Prop := s.dp.tee8 = t8 ∧ s.dp.tee16 = t16

/-- Between the header's elements the cursor stands on a byte boundary (R201). -/
def State.headerPosOk (s : State) : Prop := s.dp.brN = 0 ∧ s.teesAre true true

/-- What holds at each position while BUSY. -/
def State.posOk (s : State) : Prop :=
  match s.seq.pos with
  | .frame => s.dp.brN = 0 ∧ s.teesAre false false
  | .ca => s.headerPosOk
  | .ssc => s.headerPosOk ∧ s.channelsOk
  | .numLead => s.headerPosOk ∧ s.channelsOk
  | .numCont =>
    s.headerPosOk ∧ s.channelsOk ∧ 1 ≤ s.seq.numLeft ∧ s.seq.numLeft ≤ 6 ∧
      s.seq.num.toNat < 2 ^ (36 - 6 * s.seq.numLeft)
  | .bsc => s.headerPosOk ∧ s.channelsOk
  | .rc => s.headerPosOk ∧ s.channelsOk ∧ s.blockOk
  | .crc8 => s.headerPosOk ∧ s.channelsOk ∧ s.blockOk
  | .subHdr => s.teesAre false true ∧ s.subOk
  | .wsuffix => s.teesAre false true ∧ s.subOk ∧ kindOk s.seq.kind s.seq.order = true
  | .smp =>
    s.teesAre false true ∧ s.bodyOk ∧
      match s.cur.kind with
      | .constant => True
      | .verbatim => s.seq.idx < s.hdr.bs.toNat ∧ s.seq.x.length = s.seq.idx
      | .fixed => s.seq.idx < s.order
      | .lpc => s.seq.idx < s.order
  | .lph => s.teesAre false true ∧ s.bodyOk ∧ s.cur.kind = .lpc
  | .coef => s.teesAre false true ∧ s.bodyOk ∧ s.cur.kind = .lpc ∧ s.seq.prec.toNat < 15 ∧ s.seq.idx < s.order
  | .res => s.teesAre false true ∧ s.bodyOk ∧ s.predictive
  | .part =>
    s.teesAre false true ∧ s.residualOk ∧
      if s.seq.part = 0 then s.files.r = []
      else s.files.r.length + s.order = s.seq.part * (s.hdr.bs.toNat / 2 ^ s.seq.porder.toNat)
  | .rice =>
    s.teesAre false true ∧ s.residualOk ∧ s.seq.m.toNat ≤ 30 ∧ 1 ≤ s.seq.todo ∧
      s.files.r.length + s.seq.todo + s.order =
        (s.seq.part + 1) * (s.hdr.bs.toNat / 2 ^ s.seq.porder.toNat)
  | .pad => s.teesAre false true ∧ s.headerOk ∧ ∀ c < s.hdr.nch.toNat, s.covered c
  | .foot => s.teesAre false true ∧ s.dp.brN = 0 ∧ s.headerOk ∧ ∀ c < s.hdr.nch.toNat, s.covered c

/-- Between frames the core stands at a frame boundary with the tees off (R303, R301, R302). -/
def State.boundary (s : State) : Prop := s.dp.brN = 0 ∧ s.teesAre false false

/-- What holds in each `STATE`: a frame boundary in IDLE, DONE and EOS (R303); in DONE the results are whole (R301) and the
checksums match (R178); while BUSY what the position asks for. -/
def State.statusOk (s : State) : Prop :=
  match s.status with
  | .idle => s.boundary
  | .busy => s.posOk
  | .done =>
    s.boundary ∧ s.headerOk ∧ (∀ c < s.hdr.nch.toNat, s.covered c) ∧
      (s.params.crc16Check = true → s.ftCrc16 = s.dp.crc16)
  | .eos => s.boundary
  | .fault => True

/-- The invariant of the machine. Outside a NEXT the variables of the frame procedure hold nothing, so that the state is
what R20 lists. -/
def State.Inv (s : State) : Prop :=
  s.dp.brN ≤ 7 ∧ s.errOk ∧ s.memOk ∧ s.dSel &&& 0xFFF8#32 = 0#32 ∧ s.statusOk ∧ (s.status ≠ .busy → s.seq = Seq.start)

/-! ### Relations between states -/

/-- `t` differs from `s` only in what neither the history nor the host can make decoding depend on: `FRAME_COUNT`,
`src_pos`, `D`, `D_SEL`, the result of host reads and the counter of free values (R308, R38). -/
def SameButHistory (s t : State) : Prop :=
  { s with
    dp := { s.dp with srcPos := 0 }, frameCount := 0, d := [], dSel := 0, hostData := 0, freeCount := 0 } =
  { t with
    dp := { t.dp with srcPos := 0 }, frameCount := 0, d := [], dSel := 0, hostData := 0, freeCount := 0 }

/-- The stream after pulling the bytes `ps` one after another and leaving the unread bits alone: the source loses them
from its front, `src_pos` counts them (R70, R21) and the CRC units see them while their tee is on (R175). -/
def Pulled (ps : List Byte) (r r' : Stream) : Prop :=
  r.bytes = ps ++ r'.bytes ∧ r'.term = r.term ∧ r'.srcPos = r.srcPos + BitVec.ofNat 64 ps.length ∧
    r'.tee8 = r.tee8 ∧ r'.tee16 = r.tee16 ∧
    r'.crc8 = (if r.tee8 then ps.foldl crc8Update r.crc8 else r.crc8) ∧
    r'.crc16 = if r.tee16 then ps.foldl crc16Update r.crc16 else r.crc16

/-- `k` steps, each with a next state. From a BUSY state with no host access coming they are `k` elements. -/
def stepsTo : Nat → State → State → Prop
  | 0, s, t => t = s
  | k + 1, s, t => ∃ u, step s = .next u ∧ stepsTo k u t

/-- `k` elements of a NEXT, one after another, each from a BUSY state. -/
def elementsTo : Nat → State → State → Prop
  | 0, s, t => t = s
  | k + 1, s, t => s.status = .busy ∧ ∃ u, stepElement s = .next u ∧ elementsTo k u t

end Sys2Proof.Machine
end

