-- ==== Sys2Proof/Certificates/Slice0/Obligations.lean ====
section
/-! DEFINITION. The statements about the model. `Sys2Proof.Claims` holds the words they are written in; each statement
is one `Obligations.<Name> : Prop`. -/

namespace Sys2Proof.Claims

open Sys2Proof.Machine

/-! ### States -/

/-- What `raise` leaves (R345): the kind is recorded, and the variables of the NEXT that it ends are gone. -/
def faulted (s : State) (k : ErrKind) (info : BitVec 32) : State :=
  { s with status := .fault, err := k, errInner := info, seq := Seq.start }

/-- BUSY at `p` with no host access coming. -/
def ready (s : State) (p : Pos) : Prop :=
  s.status = .busy ∧ s.host = [] ∧ s.seq.pos = p ∧ s.sourceFits = true

/-- The datapath with which a frame header starts (R186). -/
def opened (r : Stream) : Stream := { r with crc8 := 0, crc16 := 0, tee8 := true, tee16 := true }

/-- The address lies outside the current channel's elements of this block. -/
def outsideBlock (s : State) (a : Nat) : Prop :=
  ¬(sampleAddr s.seq.ch 0 ≤ a ∧ a < sampleAddr s.seq.ch 0 + s.hdr.bs.toNat)

/-- The sequencer after the last element of a subframe (R298). -/
def afterSubframe (s : State) (q : Seq) : Seq :=
  { q with ch := s.seq.ch + 1, pos := if s.seq.ch + 1 < s.hdr.nch.toNat then .subHdr else .pad }

/-- The sample memory `d` holds the samples `xs` of the current channel, shifted by the wasted bits (R250), and
every other element as before. -/
def stores (s : State) (xs : List Word) (d : SampleMem) : Prop :=
  (∀ i < s.hdr.bs.toNat, memRead d (sampleAddr s.seq.ch i) = (xs[i]?).map fun x : Word => x <<< s.cur.wasted.toNat) ∧
    ∀ a, outsideBlock s a → memRead d a = memRead s.d a

/-! ### The bit source -/

/-- Reads of the given widths, one after another. -/
def readAll : List Nat → Stream → Option Stream
  | [], r => some r
  | n :: ns, r =>
    match r.read n with
    | .ok _ r' => readAll ns r'
    | .stop _ => none

/-- Bytes as a big-endian number (R73). -/
def bigEndian (bs : List Byte) : Nat := bs.foldl (fun v b => 256 * v + b.toNat) 0

/-- `CRC8(B)` (R172). -/
def crc8Of (bs : List Byte) : BitVec 8 := bs.foldl crc8Update 0
/-- `CRC16(B)` (R174). -/
def crc16Of (bs : List Byte) : BitVec 16 := bs.foldl crc16Update 0

/-- The nine check bytes of R172 and R174. -/
def checkBytes : List Byte := [0x31, 0x32, 0x33, 0x34, 0x35, 0x36, 0x37, 0x38, 0x39]

/-! ### The frame header -/

/-- A channel assignment accepted (R190, R191). -/
def withChannels (s : State) (code : Nat) : State :=
  { s with
    hdr :=
      { s.hdr with
        var := s.seq.fix.var, ca := BitVec.ofNat 4 code, nch := BitVec.ofNat 4 (if code ≤ 7 then code + 1 else 2) }
    seq := { s.seq with pos := .ssc } }

/-- A sample size, a number, a block size, a sample rate accepted. -/
def withSize (s : State) (v : BitVec 6) : State :=
  { s with hdr := { s.hdr with ss := v }, seq := { s.seq with pos := .numLead } }
def withNumber (s : State) (v : BitVec 36) : State :=
  { s with hdr := { s.hdr with num := v }, seq := { s.seq with pos := .bsc } }
def withBlock (s : State) (v : Nat) : State :=
  { s with hdr := { s.hdr with bs := BitVec.ofNat 17 v }, seq := { s.seq with pos := .rc } }
def withRate (s : State) (v : Nat) : State :=
  { s with hdr := { s.hdr with rate := BitVec.ofNat 20 v }, seq := { s.seq with pos := .crc8 } }

/-- A lead byte that `k` more bytes follow. -/
def numberStarts (s : State) (k : Nat) (v : BitVec 36) : State :=
  { s with seq := { s.seq with num := v, numLeft := k, pos := .numCont } }

/-- The codes of R190 that name channels, of R195 and of R197 with a table entry. -/
def channelRows : List (Instr × Nat) :=
  [(.ca0, 0), (.ca1, 1), (.ca2, 2), (.ca3, 3), (.ca4, 4), (.ca5, 5), (.ca6, 6), (.ca7, 7), (.ca8, 8), (.ca9, 9),
    (.ca10, 10)]
def blockRows : List (Instr × Nat) :=
  [(.bsc1, 192), (.bsc2, 576), (.bsc3, 1152), (.bsc4, 2304), (.bsc5, 4608), (.bsc8, 256), (.bsc9, 512), (.bsc10, 1024),
    (.bsc11, 2048), (.bsc12, 4096), (.bsc13, 8192), (.bsc14, 16384), (.bsc15, 32768)]
def rateRows : List (Instr × Nat) :=
  [(.rc1, 88200), (.rc2, 176400), (.rc3, 192000), (.rc4, 8000), (.rc5, 16000), (.rc6, 22050), (.rc7, 24000),
    (.rc8, 32000), (.rc9, 44100), (.rc10, 48000), (.rc11, 96000)]

/-- The `k` continuation bytes of `x` (R102). -/
def contBytes : Nat → Nat → List Byte
  | 0, _ => []
  | k + 1, x => BitVec.ofNat 8 (0x80 + x / 64 ^ k % 64) :: contBytes k x

/-- `enc(x)` (R165): the shortest form. -/
def utf8Bytes (x : Nat) : List Byte :=
  if x < 2 ^ 7 then [BitVec.ofNat 8 x]
  else if x < 2 ^ 11 then BitVec.ofNat 8 (0xC0 + x / 64) :: contBytes 1 x
  else if x < 2 ^ 16 then BitVec.ofNat 8 (0xE0 + x / 64 ^ 2) :: contBytes 2 x
  else if x < 2 ^ 21 then BitVec.ofNat 8 (0xF0 + x / 64 ^ 3) :: contBytes 3 x
  else if x < 2 ^ 26 then BitVec.ofNat 8 (0xF8 + x / 64 ^ 4) :: contBytes 4 x
  else if x < 2 ^ 31 then BitVec.ofNat 8 (0xFC + x / 64 ^ 5) :: contBytes 5 x
  else 0xFE#8 :: contBytes 6 x

/-- The fields of a frame header, with the tails a block-size or sample-rate code reads. -/
structure HeaderFields where
  var : BitVec 1
  bsc : BitVec 4
  rc : BitVec 4
  ca : BitVec 4
  ssc : BitVec 3
  num : BitVec 36
  bsTail : BitVec 16
  rateTail : BitVec 16
  deriving DecidableEq, Repr

/-- No field of the header is refused (R190, R192, R194, R196). -/
def HeaderFields.legal (h : HeaderFields) : Prop :=
  h.ca.toNat ≤ 10 ∧ h.ssc ≠ 3#3 ∧ h.ssc ≠ 7#3 ∧ h.bsc ≠ 0#4 ∧ h.rc ≠ 15#4

/-- The header's bytes before the CRC-8 (R101). -/
def HeaderFields.bytes (h : HeaderFields) : List Byte :=
  let w : BitVec 32 := 0x3FFE#14 ++ 0#1 ++ h.var ++ h.bsc ++ h.rc ++ h.ca ++ h.ssc ++ 0#1
  [w.extractLsb' 24 8, w.extractLsb' 16 8, w.extractLsb' 8 8, w.extractLsb' 0 8] ++ utf8Bytes h.num.toNat ++
    (if h.bsc = 6#4 then [h.bsTail.extractLsb' 0 8]
      else if h.bsc = 7#4 then [h.bsTail.extractLsb' 8 8, h.bsTail.extractLsb' 0 8] else []) ++
    (if h.rc = 12#4 then [h.rateTail.extractLsb' 0 8]
      else if h.rc = 13#4 ∨ h.rc = 14#4 then [h.rateTail.extractLsb' 8 8, h.rateTail.extractLsb' 0 8] else [])

/-- The result registers the header gives (R103 to R107), with `CFG_RATE` and `CFG_BPS` as they stand. -/
def HeaderFields.result (h : HeaderFields) (cfgRate : BitVec 20) (cfgBps : BitVec 6) : Header :=
  { var := h.var
    bs :=
      if h.bsc = 6#4 then BitVec.ofNat 17 (h.bsTail.toNat % 256 + 1)
      else if h.bsc = 7#4 then BitVec.ofNat 17 (h.bsTail.toNat + 1)
      else if h.bsc.toNat ≤ 1 then 192 else if h.bsc.toNat ≤ 5 then BitVec.ofNat 17 (576 * 2 ^ (h.bsc.toNat - 2))
      else BitVec.ofNat 17 (256 * 2 ^ (h.bsc.toNat - 8))
    rate :=
      if h.rc = 0#4 then cfgRate
      else if h.rc = 12#4 then BitVec.ofNat 20 (h.rateTail.toNat % 256 * 1000)
      else if h.rc = 13#4 then BitVec.ofNat 20 h.rateTail.toNat
      else if h.rc = 14#4 then BitVec.ofNat 20 (h.rateTail.toNat * 10)
      else
        BitVec.ofNat 20
          ([0, 88200, 176400, 192000, 8000, 16000, 22050, 24000, 32000, 44100, 48000, 96000].getD h.rc.toNat 0)
    ca := h.ca
    nch := BitVec.ofNat 4 (if h.ca.toNat ≤ 7 then h.ca.toNat + 1 else 2)
    ss := [cfgBps, 8#6, 12#6, 0#6, 16#6, 20#6, 24#6].getD h.ssc.toNat 0#6
    num := h.num
    crc8 := crc8Of h.bytes }

/-! ### Subframes -/

/-- The rows of R109 that name a kind and an order. -/
def subframeRows (o : BitVec 5) : List ((BitVec 1 → BitVec 1 → Instr) × SubKind × Nat) :=
  [(.subConstant, .constant, 0), (.subVerbatim, .verbatim, 0), (.subFixed0, .fixed, 0), (.subFixed1, .fixed, 1),
    (.subFixed2, .fixed, 2), (.subFixed3, .fixed, 3), (.subFixed4, .fixed, 4),
    (fun pad f => .subLpc pad o f, .lpc, o.toNat + 1)]

/-- The reserved rows of R109. -/
def reservedRows (pad : BitVec 1) (a : BitVec 1) (b : BitVec 2) (c : BitVec 4) : List Instr :=
  [.subRsvd00001x pad a, .subRsvd0001xx pad b, .subRsvd001101 pad, .subRsvd00111x pad a, .subRsvd01xxxx pad c]

/-- `side` (R230). -/
def side (ca : BitVec 4) (c : Nat) : Int := if (ca.toNat, c) ∈ [(8, 1), (9, 0), (10, 1)] then 1 else 0

/-- A subframe header of known kind, order and wasted bits: refused when no sample bit is left (R232), else
recorded (R233) with the body's first element next (R304). -/
def headerRead (s : State) (kind : SubKind) (p w : Nat) : State :=
  if (s.hdr.ss.toNat : Int) + side s.hdr.ca s.seq.ch - w < 1 then faulted s .badWastedBits 0
  else
    { s with
      subs :=
        s.subs.setIfInBounds s.seq.ch { kind := kind, order := BitVec.ofNat 6 p, wasted := BitVec.ofNat 6 w }
      seq := { s.seq with pos := if kind = .fixed ∧ p = 0 then .res else .smp, idx := 0, x := [] } }

/-- The subframe's coefficients and shift (R238, R244). -/
def coefs (s : State) : List Word :=
  if s.cur.kind = .fixed then
    [[], [1], [2, -1], [3, -3, 1], [4, -6, 4, -1]].getD s.order []
  else s.files.c.toList.take s.order
def shift (s : State) : Nat := if s.cur.kind = .fixed then 0 else s.files.shift.toNat

/-- The subframe ends with the residuals `rs`: its samples are the prediction over the warm-up (R281), its elements
of `D` are written, and the sequencer, `q` before it, goes on (R298). -/
def reconstructed (s : State) (q : Seq) (rs : List Word) (t : State) : Prop :=
  let xs := predict (coefs s) (s.files.w.toList.take s.order) rs (shift s)
  t.files.r = rs ∧ t.files.w = s.files.w ∧ stores s xs t.d ∧
    t = { s with files := t.files, d := t.d, seq := { afterSubframe s q with x := xs } }

/-- The place where a subframe's last partition ends with the residual count `n`: all `FH_BS - p` are there (R265). -/
def endsWith (s : State) (n : Nat) : Prop :=
  ((s.cur.kind = .fixed ∧ s.order ≤ 4) ∨ (s.cur.kind = .lpc ∧ 1 ≤ s.order ∧ s.order ≤ 32)) ∧
    2 ^ s.seq.porder.toNat ≤ s.seq.part + 1 ∧ s.order + n = s.hdr.bs.toNat

/-- The signed value of a Rice codeword (R267, R268). -/
def riceValue (m zeros : Nat) (remainder : Word) : Word :=
  let u := (zeros * 2 ^ m + remainder.toNat) % 2 ^ 64
  if u % 2 = 0 then BitVec.ofInt 64 (u / 2 : Nat) else BitVec.ofInt 64 (-(u / 2 : Nat) - 1)

/-! ### Runs -/

/-- The same configuration, parameters and coming bytes of the source. -/
def sameInputs (s s' : State) : Prop :=
  s'.cfgRate = s.cfgRate ∧ s'.cfgBps = s.cfgBps ∧ s'.params = s.params ∧ s'.stream.bytes = s.stream.bytes ∧
    s'.stream.term = s.stream.term

/-- The same end of a NEXT (R308): status, fault, CRCs and bytes left, and in DONE the header registers, the
footer, and the records and samples of the frame's channels. -/
def sameResult (t t' : State) : Prop :=
  t'.status = t.status ∧ t'.err = t.err ∧ t'.errInner = t.errInner ∧ t'.stream.bytes = t.stream.bytes ∧
    t'.stream.crc8 = t.stream.crc8 ∧ t'.stream.crc16 = t.stream.crc16 ∧
    (t.status = .done →
      t'.hdr = t.hdr ∧ t'.ftCrc16 = t.ftCrc16 ∧
        ∀ c < t.hdr.nch.toNat,
          t'.sub c = t.sub c ∧
            ∀ i < t.hdr.bs.toNat, memRead t'.d (sampleAddr c i) = memRead t.d (sampleAddr c i))

/-! ### The host -/

/-- A status in which the host may write (R26, R306). -/
def writable (s : State) : Prop := s.status = .idle ∨ s.status = .done ∨ s.status = .eos

/-- The host's next access is a NEXT that is accepted (R28, R295). -/
def issuesNext (s : State) : Prop :=
  writable s ∧ ∃ v rest, s.host = .write 2 v :: rest ∧ v.extractLsb' 0 2 = 1#2

/-- `t` is `s` after reset (R40, R380): every item of the core at its reset value but `W`, `C`, `LPC_SHIFT`, `R`,
`D` and the variables of a NEXT, which R40 leaves open or does not have; all that is not the core's is as it was
(R381). -/
def wasReset (s t : State) : Prop :=
  t = { s with toCoreState := { State.reset.toCoreState with files := t.files, d := t.d }, seq := t.seq }

/-- Register `n` reads as `v` in every `STATE` but BUSY: configuration, status, fault, counter, position,
BitReader, CRCs and window selector as they stand (R21, R23, R24, R26, R27, R29 to R32, R38); `CMD` and numbers
without a register are 0 (R28, R76). -/
def statusReads (s : State) (n : Nat) (v : Word) : Prop :=
  (n = 0 → v = s.cfgRate.zeroExtend 64) ∧ (n = 1 → v = s.cfgBps.zeroExtend 64) ∧
    (n = 3 → v = (s.status.code.zeroExtend 64 ||| (errCode s.err).zeroExtend 64 <<< 8)) ∧
    (n = 4 → v = s.errInner.zeroExtend 64) ∧ (n = 5 → v = s.frameCount) ∧ (n = 16 → v = s.dp.srcPos) ∧
    (n = 17 → s.dp.brN ≤ 7 → v = (s.dp.brCur.zeroExtend 64 ||| BitVec.ofNat 64 s.dp.brN <<< 8)) ∧
    (n = 18 → v = (s.dp.crc8.zeroExtend 64 ||| s.dp.crc16.zeroExtend 64 <<< 16)) ∧
    (n = 64 → v = s.dSel.zeroExtend 64) ∧
    (n = 2 ∨ n = 14 ∨ n = 15 ∨ (19 ≤ n ∧ n < 32) ∨ (40 ≤ n ∧ n < 64) ∨ 65 < n → v = 0)

/-- Register `n` reads as `v` in DONE: the header registers (R33), the records of the frame's channels (R34), the
footer (R35), and through the window the frame's samples (R38). -/
def resultReads (s : State) (n : Nat) (v : Word) : Prop :=
  (n = 6 → v = s.hdr.var.zeroExtend 64) ∧ (n = 7 → v = s.hdr.bs.zeroExtend 64) ∧
    (n = 8 → v = s.hdr.rate.zeroExtend 64) ∧
    (n = 9 → v = (s.hdr.ca.zeroExtend 64 ||| s.hdr.nch.zeroExtend 64 <<< 8)) ∧
    (n = 10 → v = s.hdr.ss.zeroExtend 64) ∧ (n = 11 → v = s.hdr.num.zeroExtend 64) ∧
    (n = 12 → v = s.hdr.crc8.zeroExtend 64) ∧ (n = 13 → v = s.ftCrc16.zeroExtend 64) ∧
    (∀ c < s.hdr.nch.toNat, n = 32 + c → c < 8 →
      v =
        ((kindCode (s.sub c).kind).zeroExtend 64 ||| (s.sub c).order.zeroExtend 64 <<< 8 |||
          (s.sub c).wasted.zeroExtend 64 <<< 16)) ∧
    ∀ (c i : Nat) (x : Word), n = 65 → (s.dSel.extractLsb' 0 3).toNat = c → (s.dSel.extractLsb' 16 16).toNat = i →
      c < s.hdr.nch.toNat → i < s.hdr.bs.toNat → memRead s.d (sampleAddr c i) = some x → v = x

end Sys2Proof.Claims

section

open Sys2Proof Sys2Proof.Machine Sys2Proof.Claims

/-! ## Encoding -/

/-- R120, R100 to R119: decoding the encoding of a well-formed instruction of any format gives that instruction
with every operand, and consumes exactly its bits. -/
def Obligations.DecodeOfEncode : Prop :=
  ∀ (strict : Bool) (i : Instr) (r : Stream) (rest : List Bool),
    i.wellFormed = true → i.padOk strict = true → i.alignedAt r = true → r.upcoming = encode i ++ rest →
      ∃ r', decode strict i.format r = .instr i r' ∧ r'.upcoming = rest

/-- R120, R121: whatever the decoder reads as an instruction is a well-formed instruction of the format asked for,
and the bits consumed are its encoding: no other bits decode to it. -/
def Obligations.EncodeOfDecode : Prop :=
  ∀ (strict : Bool) (f : Format) (i : Instr) (r r' : Stream),
    r.brN ≤ 7 → (f = .ft → r.brN = 0) → (∀ m, f = .rice m → m ≤ 30) → (∀ b, f = .coef b → b ≤ 15) →
    decode strict f r = .instr i r' →
      i.wellFormed = true ∧ i.padOk strict = true ∧ i.format = f ∧ r.upcoming = encode i ++ r'.upcoming

/-- R101, R102, R104, R109, R114, R115, R117: words written out bit by bit from the tables decode to what they
stand for. -/
def Obligations.DecodesTheSpecsWords : Prop :=
  (∃ r, decode true .fh (wordStream 32 0b11111111111110_0_1_0110_1100_1000_100_0 blankStream) =
      .instr (.frame 1 6 12 8 4) r) ∧
    (∃ r, decode true .u8 (wordStream 8 0b11110_000 blankStream) = .instr (.u8Lead4 0) r) ∧
    (∃ r, decode true .u8cont (wordStream 8 0b10_100100 blankStream) = .instr (.u8Cont 0b100100) r) ∧
    (∃ r, decode true .bsc (wordStream 12 0b0110_00000001 blankStream) = .instr (.bsc6 1) r) ∧
    (∃ r, decode true .rc (wordStream 12 0b1100_00110000 blankStream) = .instr (.rc12 48) r) ∧
    (∃ r, decode true .sfh (wordStream 8 0b0_100001_1 blankStream) = .instr (.subLpc 0 1 1) r) ∧
    (∃ r, decode true .wsuffix (wordStream 4 0b0001 blankStream) = .instr (.wsuffix 3) r) ∧
    (∃ r, decode true .lph (wordStream 9 0b0011_01111 blankStream) = .instr (.lph 3 15) r) ∧
    (∃ r, decode true .res (wordStream 6 0b01_0010 blankStream) = .instr (.resRice5 2) r) ∧
    (∃ r, decode true (.rice 2) (wordStream 6 0b0001_11 blankStream) = .instr (.rice 2 3 3) r) ∧
    ∃ r, decode true .ft (wordStream 16 0xFEE8 blankStream) = .instr (.foot 0xFEE8) r

/-! ## The byte source and the BitReader -/

/-- R141: a read of 1 to 64 bits that the stream still holds returns them as a number below `2^n`, first bit most
significant, pulls a byte only when its first bit is needed, and advances the cursor by `n`. -/
def Obligations.ReadReturnsTheNextBits : Prop :=
  ∀ (r : Stream) (n : Nat), r.brN ≤ 7 → 1 ≤ n → n ≤ 64 → n ≤ r.bitsLeft →
    ∃ v r', r.read n = .ok v r' ∧ v < 2 ^ n ∧ r.upcoming = msbBits n v ++ r'.upcoming ∧ r'.brN ≤ 7 ∧
      Pulled (r.bytes.take ((n - r.brN + 7) / 8)) r r' ∧ r'.brN + n = r.brN + 8 * ((n - r.brN + 7) / 8)

/-- R142: a read that the source ends inside stops at the failing pull: every byte is pulled, no bit is left, no
value is returned. A read within the bits at hand cannot fail. -/
def Obligations.ReadStopsAtTheEnd : Prop :=
  ∀ (r : Stream) (n : Nat), r.brN ≤ 7 →
    (r.bitsLeft < n → ∃ r', r.read n = .stop r' ∧ r'.brN = 0 ∧ r'.bytes = [] ∧ Pulled r.bytes r r') ∧
      (n ≤ r.brN → ∃ v, r.read n = .ok v { r with brN := r.brN - n })

/-- R146 (a) and (b), R143, R73: a read of `n` bits and then of `m` bits is one read of `n + m` bits, in value,
state and failure; at a byte boundary a read of `8k` bits returns the next `k` bytes as a big-endian number. [The
basis: The spec itself marks R146 as derived.] -/
def Obligations.ReadsSplit : Prop :=
  (∀ (r : Stream) (n m : Nat),
      r.read (n + m) =
        match r.read n with
        | .stop r1 => .stop r1
        | .ok a r1 =>
          match r1.read m with
          | .stop r2 => .stop r2
          | .ok b r2 => .ok (a * 2 ^ m + b) r2) ∧
    ∀ (r : Stream) (bs rest : List Byte), r.brN = 0 → r.bytes = bs ++ rest →
      ∃ r', r.read (8 * bs.length) = .ok (bigEndian bs) r' ∧ r'.brN = 0 ∧ r'.bytes = rest ∧ Pulled bs r r'

/-- R146 (c) and (d), R22: after any successful reads of `t` bits in all the cursor has advanced by `t`, `src_pos`
and `br_n` follow from it, `br_cur` is the last byte pulled, and source and CRCs depend on `t` alone. [The basis:
The spec itself marks R146 as derived.] -/
def Obligations.ReadsMoveTheCursor : Prop :=
  ∀ (ns : List Nat) (r r' : Stream), r.brN ≤ 7 → r.brN ≤ 8 * r.srcPos.toNat →
    r.srcPos.toNat + r.bytes.length < 2 ^ 64 → readAll ns r = some r' →
      r'.pc = r.pc + ns.sum ∧ r'.srcPos.toNat = (r'.pc + 7) / 8 ∧ r'.brN = (8 - r'.pc % 8) % 8 ∧
        Pulled (r.bytes.take ((ns.sum - r.brN + 7) / 8)) r r' ∧
        r'.brCur = (r.bytes.take ((ns.sum - r.brN + 7) / 8)).getLastD r.brCur

/-- R144: a signed field of `n` bits is its two's-complement number, in `-2^(n-1) .. 2^(n-1) - 1`. -/
def Obligations.SignedFields : Prop :=
  ∀ (n v : Nat) (r r' : Stream), 1 ≤ n → n ≤ 64 → r.read n = .ok v r' →
    (sext n (BitVec.ofNat 64 v)).toInt = (if v < 2 ^ (n - 1) then (v : Int) else (v : Int) - 2 ^ n) ∧
      -(2 ^ (n - 1) : Int) ≤ (sext n (BitVec.ofNat 64 v)).toInt ∧ (sext n (BitVec.ofNat 64 v)).toInt < 2 ^ (n - 1)

/-- R145: a unary read returns the number of 0 bits before the next 1 bit and consumes those and the 1; without a 1
bit it stops at the end of the source. -/
def Obligations.UnaryCountsZeros : Prop :=
  ∀ r : Stream,
    (∀ (q : Nat) (rest : List Bool), r.upcoming = List.replicate q false ++ true :: rest →
        ∃ r', r.readUnary = .ok q r' ∧ r'.upcoming = rest) ∧
      ((∀ b ∈ r.upcoming, b = false) → ∃ r', r.readUnary = .stop r' ∧ r'.brN = 0 ∧ r'.bytes = [])

/-! ## The CRC units -/

/-- R172: the CRC-8 of bytes followed by their CRC-8 is 0, and by no other byte; leading zero bytes change nothing;
the check value. [The basis: The spec itself marks R172 as derived.] -/
def Obligations.Crc8Laws : Prop :=
  crc8Of [] = 0 ∧ (∀ (bs : List Byte) (b : Byte), crc8Of (bs ++ [b]) = 0 ↔ b = crc8Of bs) ∧
    (∀ bs : List Byte, crc8Of (0 :: bs) = crc8Of bs) ∧ crc8Of checkBytes = 0xF4

/-- R174: the CRC-16 of bytes and a footer, high byte first, is 0 exactly when the footer is their CRC-16; leading
zero bytes change nothing; the check value. [The basis: The spec itself marks R174 as derived.] -/
def Obligations.Crc16Laws : Prop :=
  crc16Of [] = 0 ∧
    (∀ (bs : List Byte) (hi lo : Byte), crc16Of (bs ++ [hi, lo]) = 0 ↔ hi.toNat * 256 + lo.toNat = (crc16Of bs).toNat) ∧
    (∀ bs : List Byte, crc16Of (0 :: bs) = crc16Of bs) ∧ crc16Of checkBytes = 0xFEE8

/-! ## The step -/

/-- R304, R28, R392: when the bits at the cursor decode, in the format of the position, to an instruction, the step
from a BUSY state is exec of it with its bits consumed; a host write of a command code is exec of the command, and
an accepted NEXT goes on with its elements in the same step. [The basis: The spec itself marks R304, R392 as
derived. A step from a BUSY state is one element: the model's choice, log entry 3.] -/
def Obligations.StepRunsTheDecodedInstruction : Prop :=
  (∀ (s : State) (i : Instr) (r : Stream), s.sourceFits = true → s.status = .busy →
      (s.host = [] ∨ ∃ rest, s.host = .poll :: rest) → s.openElement.fetch = .instr i r →
        step s = exec i (s.openElement.withStream r)) ∧
    ∀ (s : State) (n : Nat) (v : Word) (rest : List HostEvent) (i : Instr), s.host = .write n v :: rest →
      commandOfWrite n v = some i →
        (¬(i = .next ∧ writable s) → step s = exec i { s with host := rest }) ∧
          (i = .next → writable s →
            ∃ t, exec i { s with host := rest } = .next t ∧ step s = runFrame t.elementBound t)

/-- R186, R199, R300: what the sequencer does before an element's first bit: a frame header clears both CRCs and
switches both tees on, the CRC-8 field switches `tee8` off, the footer `tee16`; no other element does anything.
[The basis: The spec itself marks R25 as derived. That this happens in the fetch of the element is the model's
choice, log entry 3.] -/
def Obligations.ElementsOpen : Prop :=
  ∀ s : State,
    s.openElement =
      s.withStream
        (if s.seq.pos = .frame then opened s.stream
        else if s.seq.pos = .crc8 then { s.stream with tee8 := false }
        else if s.seq.pos = .foot then { s.stream with tee16 := false } else s.stream)

/-- R142, R187 to R189: an element no row matches raises the fault the decoder names; an element the source ends
inside raises IoError with the source's code or UnexpectedEof. [The basis: A step from a BUSY state is one element:
the model's choice, log entry 3. That the decoder rejects such a header by name is a deduction: log entry 14.] -/
def Obligations.RejectedElementsFault : Prop :=
  ∀ (s : State) (r : Stream), s.sourceFits = true → s.status = .busy → s.host = [] →
    (∀ k, s.openElement.fetch = .illegal k r → step s = .next (faulted (s.openElement.withStream r) k 0)) ∧
      (∀ e, s.openElement.fetch = .stopped r → r.term = .ioError e →
        step s = .next (faulted (s.openElement.withStream r) .ioError e)) ∧
      (s.openElement.fetch = .stopped r → r.term = .eof → ¬(s.seq.pos = .frame ∧ s.stream.bytes = []) →
        step s = .next (faulted (s.openElement.withStream r) .unexpectedEof 0))

/-- R302, R186: a frame whose first pull answers Eof ends in EOS and changes nothing but the CRCs that the header
start cleared; NEXT in EOS ends in EOS again; IoError at the first pull is the fault. [The basis: A step from a
BUSY state is one element: the model's choice, log entry 3.] -/
def Obligations.EndOfStreamAtTheBoundary : Prop :=
  ∀ s : State, s.stream.bytes = [] → s.stream.brN = 0 →
    let ended : State :=
      { s with
        status := .eos, err := .endOfStream, errInner := 0, seq := Seq.start,
        dp := { s.dp with crc8 := 0, crc16 := 0, tee8 := false, tee16 := false } }
    (ready s .frame → s.stream.term = .eof → step s = .next ended) ∧
      (ready s .frame → ∀ e, s.stream.term = .ioError e →
        step s = .next (faulted (s.withStream (opened s.stream)) .ioError e)) ∧
      ∀ rest, s.status = .eos → s.host = .write 2 1 :: rest → s.stream.term = .eof →
        step s = .next { ended with host := rest }

/-- R302, R343: the core enters EOS only when a frame header met Eof at its first pull: no byte of the source was
left, neither at that element nor when the NEXT was issued. [The basis: The spec itself marks R392 as derived. A
step from a BUSY state is one element: the model's choice, log entry 3.] -/
def Obligations.EndOfStreamOnlyThere : Prop :=
  (∀ s t : State, s.status = .busy → step s = .next t → t.status = .eos →
      s.seq.pos = .frame ∧ s.src.bytes = [] ∧ s.src.term = .eof) ∧
    ∀ s t : State, s.Inv → issuesNext s → step s = .next t → t.status = .eos → s.src.bytes = [] ∧ s.src.term = .eof

/-! ## The frame header -/

/-- R187, R188: 14 bits other than 0x3FFE at a frame boundary raise BadSync with both bytes pulled; after the sync
bits a reserved bit of 1 raises BadReserved at once, with one bit of the second byte unread. [The basis: A step
from a BUSY state is one element: the model's choice, log entry 3.] -/
def Obligations.SyncAndFirstReservedBit : Prop :=
  ∀ (s : State) (b0 b1 : Byte) (rest : List Byte), ready s .frame → s.stream.brN = 0 →
    s.stream.bytes = b0 :: b1 :: rest →
    ((b0 ++ b1).extractLsb' 2 14 ≠ 0x3FFE →
        ∃ r, step s = .next (faulted (s.withStream r) .badSync 0) ∧ Pulled [b0, b1] (opened s.stream) r ∧
          r.brN = 2 ∧ r.brCur = b1) ∧
      ((b0 ++ b1).extractLsb' 1 15 = 0x7FFD →
        ∃ r, step s = .next (faulted (s.withStream r) .badReserved 0) ∧ Pulled [b0, b1] (opened s.stream) r ∧
          r.brN = 1)

/-- R101, R188, R189: FRAME holds the five fields of the fixed part and the channel assignment comes next. In a
step over four bytes with the sync bits and a first reserved bit of 0, a second reserved bit of 1 raises
BadReserved after all four; else FRAME runs with the fields in the places of R101. [The basis: A step from a BUSY
state is one element: the model's choice, log entry 3.] -/
def Obligations.FixedPartRows : Prop :=
  let held := fun (s : State) (f : FixedPart) => { s with seq := { s.seq with fix := f, pos := .ca } }
  (∀ (s : State) (var : BitVec 1) (bsc rc ca : BitVec 4) (ssc : BitVec 3),
      exec (.frame var bsc rc ca ssc) s = .next (held s { var := var, bsc := bsc, rc := rc, ca := ca, ssc := ssc })) ∧
    ∀ (s : State) (b0 b1 b2 b3 : Byte) (rest : List Byte), ready s .frame → s.stream.brN = 0 →
      s.stream.bytes = b0 :: b1 :: b2 :: b3 :: rest →
      let w : BitVec 32 := b0 ++ b1 ++ b2 ++ b3
      w.extractLsb' 17 15 = 0x7FFC →
        ∃ r, Pulled [b0, b1, b2, b3] (opened s.stream) r ∧ r.brN = 0 ∧
          step s =
            .next
              (if w.getLsbD 0 then faulted (s.withStream r) .badReserved 0
              else
                held (s.withStream r)
                  { var := w.extractLsb' 16 1, bsc := w.extractLsb' 12 4, rc := w.extractLsb' 8 4,
                    ca := w.extractLsb' 4 4, ssc := w.extractLsb' 1 3 })

/-- R106, R190, R191: a channel-assignment code 0 to 10 writes `FH_VAR`, `FH_CA` and `FH_NCH`; 11 to 15 raise
BadChannelAssignment. -/
def Obligations.ChannelAssignmentRows : Prop :=
  ∀ s : State,
    (∀ e ∈ channelRows, exec e.1 s = .next (withChannels s e.2)) ∧
      ∀ i ∈ [Instr.ca11, .ca12, .ca13, .ca14, .ca15], exec i s = .next (faulted s .badChannelAssignment 0)

/-- R107, R192: the sample-size codes: 0 takes `CFG_BPS` as it stands, 3 and 7 raise BadSampleSize. -/
def Obligations.SampleSizeRows : Prop :=
  ∀ s : State,
    exec .ssc0 s = .next (withSize s s.cfgBps) ∧ exec .ssc1 s = .next (withSize s 8) ∧
      exec .ssc2 s = .next (withSize s 12) ∧ exec .ssc3 s = .next (faulted s .badSampleSize 0) ∧
      exec .ssc4 s = .next (withSize s 16) ∧ exec .ssc5 s = .next (withSize s 20) ∧
      exec .ssc6 s = .next (withSize s 24) ∧ exec .ssc7 s = .next (faulted s .badSampleSize 0)

/-- R102, R161, R163: a lead byte's payload starts the number and its leading 1 bits say how many bytes follow;
10xxxxxx and 11111111 raise BadUtf8. -/
def Obligations.Utf8LeadRows : Prop :=
  ∀ s : State,
    (∀ p, exec (.u8Lead1 p) s = .next (withNumber s (BitVec.ofNat 36 p.toNat))) ∧
      (∀ p, exec (.u8Lead2 p) s = .next (numberStarts s 1 (BitVec.ofNat 36 p.toNat))) ∧
      (∀ p, exec (.u8Lead3 p) s = .next (numberStarts s 2 (BitVec.ofNat 36 p.toNat))) ∧
      (∀ p, exec (.u8Lead4 p) s = .next (numberStarts s 3 (BitVec.ofNat 36 p.toNat))) ∧
      (∀ p, exec (.u8Lead5 p) s = .next (numberStarts s 4 (BitVec.ofNat 36 p.toNat))) ∧
      (∀ p, exec (.u8Lead6 p) s = .next (numberStarts s 5 (BitVec.ofNat 36 p.toNat))) ∧
      exec .u8Lead7 s = .next (numberStarts s 6 0) ∧
      (∀ p, exec (.u8BadLead1 p) s = .next (faulted s .badUtf8 0)) ∧
      exec .u8BadLead8 s = .next (faulted s .badUtf8 0)

/-- R161, R162: a continuation byte appends 6 bits, and the last one completes `FH_NUM`; any other byte raises
BadUtf8. -/
def Obligations.Utf8ContinuationRows : Prop :=
  ∀ s : State,
    (∀ p, s.seq.numLeft = 1 →
        exec (.u8Cont p) s = .next (withNumber s (BitVec.ofNat 36 (s.seq.num.toNat * 64 + p.toNat)))) ∧
      (∀ p, 2 ≤ s.seq.numLeft →
        exec (.u8Cont p) s =
          .next
            { s with
              seq :=
                { s.seq with
                  num := BitVec.ofNat 36 (s.seq.num.toNat * 64 + p.toNat), numLeft := s.seq.numLeft - 1 } }) ∧
      (∀ p, exec (.u8BadCont0 p) s = .next (faulted s .badUtf8 0)) ∧
      ∀ p, exec (.u8BadCont3 p) s = .next (faulted s .badUtf8 0)

/-- R104, R195: the block-size codes: 0 raises BadBlockSize, 6 and 7 give their tail plus 1, the others the table's
entry. -/
def Obligations.BlockSizeRows : Prop :=
  ∀ s : State,
    exec .bsc0 s = .next (faulted s .badBlockSize 0) ∧ (∀ e ∈ blockRows, exec e.1 s = .next (withBlock s e.2)) ∧
      (∀ tail, exec (.bsc6 tail) s = .next (withBlock s (tail.toNat + 1))) ∧
      ∀ tail, exec (.bsc7 tail) s = .next (withBlock s (tail.toNat + 1))

/-- R105, R197: the sample-rate codes: 0 takes `CFG_RATE` as it stands, 12 to 14 scale their tail, 15 raises
BadSampleRate, the others give the table's entry. -/
def Obligations.SampleRateRows : Prop :=
  ∀ s : State,
    exec .rc0 s = .next (withRate s s.cfgRate.toNat) ∧ (∀ e ∈ rateRows, exec e.1 s = .next (withRate s e.2)) ∧
      (∀ tail, exec (.rc12 tail) s = .next (withRate s (tail.toNat * 1000))) ∧
      (∀ tail, exec (.rc13 tail) s = .next (withRate s tail.toNat)) ∧
      (∀ tail, exec (.rc14 tail) s = .next (withRate s (tail.toNat * 10))) ∧
      exec .rc15 s = .next (faulted s .badSampleRate 0)

/-- R199: CRC8 stores its byte in `FH_CRC8` and compares it with `crc8`: a mismatch raises BadChecksum with 8. In a
step, on a byte boundary, `tee8` goes off first: `crc8` keeps the expected value, the byte still enters `crc16`.
[The basis: A step from a BUSY state is one element: the model's choice, log entry 3.] -/
def Obligations.HeaderChecksum : Prop :=
  let checked := fun (s : State) (stored : BitVec 8) =>
    let s1 : State := { s with hdr := { s.hdr with crc8 := stored } }
    if stored = s.stream.crc8 then
      { s1 with seq := { s.seq with ch := 0, pos := if 0 < s.hdr.nch.toNat then .subHdr else .pad } }
    else faulted s1 .badChecksum 8
  (∀ (s : State) (stored : BitVec 8), exec (.crc8 stored) s = .next (checked s stored)) ∧
    ∀ (s : State) (b : Byte) (rest : List Byte), ready s .crc8 → s.stream.brN = 0 → s.stream.bytes = b :: rest →
      ∃ r, Pulled [b] { s.stream with tee8 := false } r ∧ r.crc8 = s.stream.crc8 ∧ r.brN = 0 ∧
        step s = .next (checked (s.withStream r) b)

/-- R165 (a): over the shortest form of `x` below 2^36 the number field ends, after one step a byte, with `FH_NUM =
x` and exactly those bytes consumed. [The basis: The spec itself marks R165 as derived. A step from a BUSY state is
one byte: the model's choice, log entry 3.] -/
def Obligations.Utf8IsInvertedByDecoding : Prop :=
  ∀ (s : State) (x : Nat) (rest : List Byte), x < 2 ^ 36 → ready s .numLead → s.stream.brN = 0 →
    s.stream.bytes = utf8Bytes x ++ rest →
      ∃ t, stepsTo (utf8Bytes x).length s t ∧ Pulled (utf8Bytes x) s.stream t.stream ∧ t.stream.brN = 0 ∧
        t.seq.pos = .bsc ∧
        t = { s with hdr := { s.hdr with num := BitVec.ofNat 36 x }, src := t.src, dp := t.dp, seq := t.seq }

/-- R185, R201: a header of legal fields followed by its CRC-8 is accepted: the result registers hold what R103 to
R107 say, exactly its bytes are consumed, and the first subframe comes next. [The basis: The spec itself marks
R201, R202 as derived. A step from a BUSY state is one element: the model's choice, log entry 3.] -/
def Obligations.LegalHeadersAreAccepted : Prop :=
  ∀ (s : State) (h : HeaderFields) (rest : List Byte), h.legal → ready s .frame → s.stream.brN = 0 →
    s.stream.bytes = h.bytes ++ [crc8Of h.bytes] ++ rest →
      ∃ k t, stepsTo k s t ∧ t.status = .busy ∧ t.seq.pos = .subHdr ∧ t.seq.ch = 0 ∧
        t.hdr = h.result s.cfgRate s.cfgBps ∧ t.stream.bytes = rest ∧ t.stream.brN = 0 ∧
        t.stream.crc8 = crc8Of h.bytes ∧ t.stream.crc16 = crc16Of (h.bytes ++ [crc8Of h.bytes]) ∧
        t.subs = s.subs ∧ t.d = s.d ∧ t.frameCount = s.frameCount

/-! ## Subframes -/

/-- R221, R226, R232, R233: a subframe header without wasted bits is recorded and its body starts, or is refused
with BadWastedBits; with `wflag` 1 the suffix comes next. With a padding bit of 1 this holds when `P_PAD_STRICT` is
false. [The basis: The spec itself marks R304 as derived. With `FH_SS` = 0 on a channel with the side signal this
follows R232 over the words of R383 and U17: log entry 19.] -/
def Obligations.SubframeHeaderRows : Prop :=
  ∀ (s : State) (o : BitVec 5) (pad wflag : BitVec 1), pad = 0#1 ∨ s.params.padStrict = false → s.seq.ch < 8 →
    0 < s.hdr.bs.toNat →
      ∀ e ∈ subframeRows o,
        exec (e.1 pad wflag) s =
          .next
            (if wflag = 0#1 then headerRead s e.2.1 e.2.2 0
            else { s with seq := { s.seq with kind := e.2.1, order := BitVec.ofNat 6 e.2.2, pos := .wsuffix } })

/-- R223, R224: a padding bit of 1 under `P_PAD_STRICT`, and every reserved type code, raise BadSubframeType. [The
basis: What SUB.BADPAD does when `P_PAD_STRICT` is false, and what a subframe row or a reserved row with padding
bit 1 does when it is true, are terms the decoder never gives: the model's choice, log entry 15.] -/
def Obligations.SubframeHeaderFaults : Prop :=
  ∀ (s : State) (o : BitVec 5) (pad wflag : BitVec 1),
    (pad = 1#1 → s.params.padStrict = true →
        ∀ e ∈ subframeRows o, exec (e.1 pad wflag) s = .next (faulted s .badSubframeType 0)) ∧
      (∀ a b c, ∀ i ∈ reservedRows pad a b c, exec i s = .next (faulted s .badSubframeType 0)) ∧
      ∀ t, exec (.subBadPad t) s = .next (faulted s .badSubframeType 0)

/-- R226, R231 to R233: the unary suffix of `k` zeros gives `w = k + 1`, and the header, of the kind and order read
before, is then recorded or refused with BadWastedBits. [The basis: With `FH_SS` = 0 on a channel with the side
signal this follows R232 over the words of R383 and U17: log entry 19.] -/
def Obligations.WastedBitsRow : Prop :=
  ∀ (s : State) (k : Nat), s.seq.ch < 8 → 0 < s.hdr.bs.toNat →
    exec (.wsuffix k) s = .next (headerRead s s.seq.kind s.seq.order.toNat (k + 1))

/-- R237, R238, R244: a warm-up sample goes to `W`, and the last one is followed by the residual section or the LPC
header; a VERBATIM sample that is not the last is the next of `X`. [The basis: The spec itself marks R304 as
derived.] -/
def Obligations.SampleRows : Prop :=
  ∀ (s : State) (b : Nat) (v : Word),
    (s.cur.kind = .fixed ∨ s.cur.kind = .lpc →
        exec (.smp b v) s =
          .next
            { s with
              files := { s.files with w := s.files.w.setIfInBounds s.seq.idx (sext b v) }
              seq :=
                { s.seq with
                  idx := if s.seq.idx + 1 < s.order then s.seq.idx + 1 else 0
                  pos :=
                    if s.seq.idx + 1 < s.order then .smp else if s.cur.kind = .fixed then .res else .lph } }) ∧
      (s.cur.kind = .verbatim → s.seq.idx + 1 < s.hdr.bs.toNat →
        exec (.smp b v) s =
          .next
            { s with
              seq := { s.seq with x := s.seq.x ++ [sext b v], idx := s.seq.idx + 1, pos := .smp } })

/-- R236, R237, R250: the one sample of a CONSTANT subframe, or the last of a VERBATIM one, ends it: the channel's
elements of `D` are the samples shifted by the wasted bits, no other element changes, and the next subframe comes
next. -/
def Obligations.UncodedSubframeEnds : Prop :=
  ∀ (s : State) (b : Nat) (v : Word),
    let xs := if s.cur.kind = .constant then List.replicate s.hdr.bs.toNat (sext b v) else s.seq.x ++ [sext b v]
    s.cur.kind = .constant ∨
        (s.cur.kind = .verbatim ∧ s.seq.x.length = s.seq.idx ∧ s.seq.idx + 1 = s.hdr.bs.toNat) →
      ∃ t, exec (.smp b v) s = .next t ∧ stores s xs t.d ∧
        t = { s with d := t.d, seq := { afterSubframe s s.seq with x := xs } }

/-- R244 to R246: the LPC header writes `LPC_SHIFT` and the coefficients come next; precision code 15 raises
BadLpcPrecision, a negative shift BadLpcShift. -/
def Obligations.LpcHeaderRows : Prop :=
  ∀ (s : State) (prec sh : BitVec 4), prec ≠ 15#4 →
    exec (.lph prec sh) s =
        .next
          { s with
            files := { s.files with shift := sh }, seq := { s.seq with prec := prec, idx := 0, pos := .coef } } ∧
      exec .lphBadPrec s = .next (faulted s .badLpcPrecision 0) ∧
      exec (.lphBadShift prec sh) s = .next (faulted s .badLpcShift 0)

/-- R247: a coefficient goes to the next place of `C`; the last one is followed by the residual section. [The
basis: The spec itself marks R304 as derived.] -/
def Obligations.CoefficientRow : Prop :=
  ∀ (s : State) (b : Nat) (v : Word),
    exec (.coef b v) s =
      .next
        { s with
          files := { s.files with c := s.files.c.setIfInBounds s.seq.idx (sext b v) }
          seq :=
            { s.seq with
              idx := if s.seq.idx + 1 < s.order then s.seq.idx + 1 else 0
              pos := if s.seq.idx + 1 < s.order then .coef else .res } }

/-! ## Residuals -/

/-- R261, R266 (a): the residual header: a partition order that does not divide the block raises BadPartition,
method 2 or 3 BadResidualMethod; else the first partition comes next with no residual yet. -/
def Obligations.ResidualHeaderRows : Prop :=
  ∀ (s : State) (p : BitVec 4) (m : BitVec 1),
    (∀ e ∈ [(Instr.resRice4 p, 0#1), (Instr.resRice5 p, 1#1)],
        exec e.1 s =
          .next
            (if 0 < p.toNat ∧ s.hdr.bs.toNat % 2 ^ p.toNat ≠ 0 then faulted s .badPartition 0
            else
              { s with
                files := { s.files with r := [] }
                seq := { s.seq with method := e.2, porder := p, part := 0, pos := .part } })) ∧
      exec (.resBadMethod m) s = .next (faulted s .badResidualMethod 0)

/-- R262 to R266: a partition header: the all-ones parameter raises UnsupportedEscape, a negative length
BadPartition; with a positive length its codewords come next, with length 0 the next partition, if there is one. -/
def Obligations.PartitionRows : Prop :=
  ∀ s : State,
    let n := partitionLength s.hdr.bs s.order s.seq.porder s.seq.part
    exec .part4Esc s = .next (faulted s .unsupportedEscape 0) ∧
      exec .part5Esc s = .next (faulted s .unsupportedEscape 0) ∧
      ∀ (i : Instr) (m : BitVec 5),
        (∃ m4 : BitVec 4, m4 ≠ 15#4 ∧ i = .part4 m4 ∧ m = BitVec.ofNat 5 m4.toNat) ∨ (m ≠ 31#5 ∧ i = .part5 m) →
          (n < 0 → exec i s = .next (faulted s .badPartition 0)) ∧
            (0 < n → exec i s = .next { s with seq := { s.seq with m := m, todo := n.toNat, pos := .rice } }) ∧
            (n = 0 → s.seq.part + 1 < 2 ^ s.seq.porder.toNat →
              exec i s =
                .next { s with seq := { s.seq with m := m, todo := 0, part := s.seq.part + 1, pos := .part } }) ∧
            (n = 0 → endsWith s s.files.r.length →
              ∃ t, exec i s = .next t ∧ reconstructed s { s.seq with m := m, todo := 0 } s.files.r t)

/-- R265: the partition lengths, and that over all partitions they add up to `FH_BS - p`. -/
def Obligations.PartitionLengthsAddUp : Prop :=
  ∀ (bs : BitVec 17) (p : Nat) (P : BitVec 4), bs.toNat % 2 ^ P.toNat = 0 →
    (∀ i < 2 ^ P.toNat,
        partitionLength bs p P i =
          if P.toNat = 0 then (bs.toNat : Int) - p
          else if i = 0 then (bs.toNat : Int) / 2 ^ P.toNat - p else (bs.toNat : Int) / 2 ^ P.toNat) ∧
      ((List.range (2 ^ P.toNat)).map fun i => partitionLength bs p P i).sum = (bs.toNat : Int) - p

/-- R262, R267: a codeword's value is the next of `R`; after the last one of a partition the next partition comes. -/
def Obligations.RiceRow : Prop :=
  ∀ (s : State) (m q : Nat) (v : Word),
    (2 ≤ s.seq.todo →
        exec (.rice m q v) s =
          .next
            { s with
              files := { s.files with r := s.files.r ++ [riceValue m q v] }
              seq := { s.seq with todo := s.seq.todo - 1 } }) ∧
      (s.seq.todo = 1 → s.seq.part + 1 < 2 ^ s.seq.porder.toNat →
        exec (.rice m q v) s =
          .next
            { s with
              files := { s.files with r := s.files.r ++ [riceValue m q v] }
              seq := { s.seq with todo := 0, part := s.seq.part + 1, pos := .part } })

/-- R238, R244, R250, R280: the last residual ends the subframe: the prediction with the kind's coefficients and
shift fills the channel's elements of `D`, shifted by the wasted bits, and no other element changes. -/
def Obligations.LastResidualReconstructs : Prop :=
  ∀ (s : State) (m q : Nat) (v : Word), s.seq.todo = 1 → endsWith s (s.files.r.length + 1) →
    ∃ t, exec (.rice m q v) s = .next t ∧ reconstructed s { s.seq with todo := 0 } (s.files.r ++ [riceValue m q v]) t

/-- R268: zig-zag unfolding: even `u` gives `u / 2`, odd `u` gives `-(u / 2) - 1`; the same as the bit operation;
the table. -/
def Obligations.ZigzagUnfolds : Prop :=
  (∀ u : Word,
      (unzigzag u).toInt = (if u.toNat % 2 = 0 then ((u.toNat / 2 : Nat) : Int) else -((u.toNat / 2 : Nat) : Int) - 1) ∧
        unzigzag u = (u >>> 1) ^^^ (0 - (u &&& 1))) ∧
    ([0, 1, 2, 3, 4, 5, 6].map unzigzag : List Word) = [0, -1, 1, -2, 2, -3, 3] ∧
    (unzigzag (-1)).toInt = -2 ^ 63 ∧ (unzigzag (-2)).toInt = 2 ^ 63 - 1

/-! ## The predictor -/

/-- R281 to R283: the prediction: the warm-up first, then each sample is its residual plus the floor of the sum of
products, over the integers and reduced once, divided by `2^s`. -/
def Obligations.PredictorRecurrence : Prop :=
  (∀ (cs w rs : List Word) (sh : Nat), cs.length = w.length →
      let xs := predict cs w rs sh
      xs.length = w.length + rs.length ∧ (∀ i < w.length, xs[i]? = w[i]?) ∧
        ∀ i, w.length ≤ i → i < w.length + rs.length →
          let sum := ((List.range w.length).map fun j => (cs.getD j 0).toInt * (xs.getD (i - j - 1) 0).toInt).sum
          xs.getD i 0 = rs.getD (i - w.length) 0 + (BitVec.ofInt 64 sum).sshiftRight sh) ∧
    ∀ (x : Word) (sh : Nat), (x.sshiftRight sh).toInt = x.toInt / 2 ^ sh

/-- R285: with samples below 2^40, coefficients up to 2^14 and an order up to 32 the sum stays below 2^59, the
64-bit sum is the integer sum, and with a residual below 2^62 the addition does not wrap. [The basis: The spec
itself marks R285 as derived.] -/
def Obligations.NoWrapOnSmallSamples : Prop :=
  ∀ (cs xs : List Word) (r : Word) (sh : Nat), cs.length ≤ 32 → xs.length = cs.length →
    (∀ c ∈ cs, |c.toInt| ≤ 2 ^ 14) → (∀ x ∈ xs, |x.toInt| < 2 ^ 40) → |r.toInt| < 2 ^ 62 →
      let sum := (List.zipWith (fun c x : Word => c.toInt * x.toInt) cs xs).sum
      |sum| < 2 ^ 59 ∧ (weightedSum 0 cs xs).toInt = sum ∧
        (r + (weightedSum 0 cs xs).sshiftRight sh).toInt = r.toInt + sum / 2 ^ sh

/-- R239 to R243: the recurrences of the FIXED orders 0 to 4. -/
def Obligations.FixedRecurrences : Prop :=
  ∀ (p : Nat) (w rs : List Word), p ≤ 4 → w.length = p →
    let xs := predict (fixedCoef p) w rs 0
    let x := fun i => xs.getD i 0
    xs.take p = w ∧ xs.length = p + rs.length ∧
      ∀ k < rs.length,
        x (p + k) =
          rs.getD k 0 +
            match p with
            | 0 => 0
            | 1 => x k
            | 2 => 2 * x (k + 1) - x k
            | 3 => 3 * x (k + 2) - 3 * x (k + 1) + x k
            | _ => 4 * x (k + 3) - 6 * x (k + 2) + 4 * x (k + 1) - x k

/-! ## The end of a frame and the host -/

/-- R147, R299: the padding bits are dropped unexamined and the footer comes next. -/
def Obligations.PaddingRow : Prop :=
  ∀ (s : State) (n : Nat) (v : BitVec 7),
    exec (.padbits n v) s = .next { s with dp := { s.dp with brN := 0 }, seq := { s.seq with pos := .foot } }

/-- R300, R301: FOOT stores the footer; under `P_CRC16_CHECK` a mismatch raises BadChecksum with 16; else the frame
is counted and the core is DONE. In a step `tee16` goes off first and the two bytes are pulled directly, the first
one high; Eof at either is UnexpectedEof. [The basis: A step from a BUSY state is one element: the model's choice,
log entry 3.] -/
def Obligations.Footer : Prop :=
  let checked := fun (s : State) (c : BitVec 16) =>
    if s.params.crc16Check = true ∧ c ≠ s.stream.crc16 then faulted { s with ftCrc16 := c } .badChecksum 16
    else { s with ftCrc16 := c, frameCount := s.frameCount + 1, status := .done, seq := Seq.start }
  (∀ (s : State) (c : BitVec 16), exec (.foot c) s = .next (checked s c)) ∧
    ∀ s : State, ready s .foot → s.stream.brN = 0 →
      (∀ (b0 b1 : Byte) (rest : List Byte), s.stream.bytes = b0 :: b1 :: rest →
          ∃ r, Pulled [b0, b1] { s.stream with tee16 := false } r ∧ r.crc16 = s.stream.crc16 ∧ r.brN = 0 ∧
            step s = .next (checked (s.withStream r) (b0 ++ b1))) ∧
        (s.stream.bytes.length < 2 → s.stream.term = .eof →
          ∃ r, r.bytes = [] ∧ step s = .next (faulted (s.withStream r) .unexpectedEof 0))

/-- R295, R296, R380 to R382: NEXT is accepted in IDLE, DONE and EOS and ignored in BUSY and FAULT; RESET is
accepted in every state but BUSY; the reset line acts in every state. RESET and the reset line leave the reset
values, over the source as it stands; what R40 leaves unspecified is left open here. [The basis: What a reset
leaves alone beside the source is the surroundings the model holds: log entries 1, 2 and 6.] -/
def Obligations.CommandRows : Prop :=
  ∀ s : State,
    (writable s →
        exec .next s =
          .next { s with status := .busy, err := .none, errInner := 0, seq := { s.seq with pos := .frame } }) ∧
      (s.status = .busy ∨ s.status = .fault → exec .next s = .next s) ∧
      (s.status = .busy → exec .reset s = .next s) ∧
      (s.status ≠ .busy → ∃ t, exec .reset s = .next t ∧ wasReset s t) ∧
      ∀ rest, s.host = .resetLine :: rest → ∃ t, step s = .next t ∧ wasReset { s with host := rest } t

/-- R40: the reset values. -/
def Obligations.ResetValues : Prop :=
  let s := State.reset
  s.stream.srcPos = 0 ∧ s.stream.brCur = 0 ∧ s.stream.brN = 0 ∧ s.stream.crc8 = 0 ∧ s.stream.crc16 = 0 ∧
    s.stream.tee8 = false ∧ s.stream.tee16 = false ∧ s.cfgRate = 0 ∧ s.cfgBps = 0 ∧ s.status.code = 0 ∧
    errCode s.err = 0 ∧ s.errInner = 0 ∧ s.frameCount = 0 ∧
    s.hdr = { var := 0, bs := 0, rate := 0, ca := 0, nch := 0, ss := 0, num := 0, crc8 := 0 } ∧
    (∀ c < 8, kindCode (s.sub c).kind = 0 ∧ (s.sub c).order = 0 ∧ (s.sub c).wasted = 0) ∧ s.ftCrc16 = 0 ∧ s.dSel = 0

/-- R26, R27, R38, R76, R306, R390: host writes: `CFG_RATE`, `CFG_BPS` and `D_SEL` are written in IDLE, DONE and
EOS; a write of any other register but `CMD`, and a command code that names no command, is ignored; in BUSY every
write is ignored, commands too; in FAULT every write but `CMD` = RESET is ignored. [The basis: In FAULT this
follows R306 over R26's words: log entry 8.] -/
def Obligations.HostWrites : Prop :=
  ∀ (s : State) (n : Nat) (v : Word) (rest : List HostEvent), s.host = .write n v :: rest →
    let s1 : State := { s with host := rest }
    (writable s → n = 0 → step s = .next { s1 with cfgRate := v.extractLsb' 0 20 }) ∧
      (writable s → n = 1 → step s = .next { s1 with cfgBps := v.extractLsb' 0 6 }) ∧
      (writable s → n = 64 → step s = .next { s1 with dSel := v.extractLsb' 0 32 &&& 0xFFFF0007#32 }) ∧
      (n ≠ 0 → n ≠ 1 → n ≠ 2 → n ≠ 64 → step s = .next s1) ∧
      (n = 2 → v.extractLsb' 0 2 = 0#2 ∨ v.extractLsb' 0 2 = 3#2 → step s = .next s1) ∧
      (s.status = .busy → step s = .next s1) ∧
      (s.status = .fault → n ≠ 2 ∨ v.extractLsb' 0 2 ≠ 2#2 → step s = .next s1)

/-- R76: host reads change nothing of the core. `STATE` reads in every state (R390). In every state but BUSY, FAULT
included (R346), configuration, status, fault, counter, position, CRCs and window selector read as they stand, and
a number without a register reads 0. In DONE the header registers, the frame's records, the footer and, through the
window, the frame's samples read as they stand (R391). In FAULT after a checksum mismatch the stored checksum reads
as it stands (R342, R346). [The basis: `FH_CRC8` in FAULT follows R199, R342 and R346 over R33's words: log entry
20. `br_cur`, the configuration registers and `D_SEL` in FAULT follow R23, R26, R27, R38 and R306 over the last
words of R346: log entry 21.] -/
def Obligations.HostReads : Prop :=
  ∀ (s : State) (n : Nat) (rest : List HostEvent), s.host = .read n :: rest →
    ∃ t, step s = .next t ∧ t = { s with host := rest, hostData := t.hostData, freeCount := t.freeCount } ∧
      (n = 3 → t.hostData &&& 7 = (s.status.code).zeroExtend 64) ∧
      (s.status ≠ .busy → statusReads s n t.hostData) ∧ (s.status = .done → resultReads s n t.hostData) ∧
      (s.status = .fault → s.err = .badChecksum →
        (n = 12 → s.errInner = 8 → t.hostData = s.hdr.crc8.zeroExtend 64) ∧
          (n = 13 → s.errInner = 16 → t.hostData = s.ftCrc16.zeroExtend 64))

/-! ## The whole machine -/

/-- The invariant holds after reset. [The basis: The spec itself marks R303 as derived.] -/
def Obligations.ResetHasInv : Prop := State.reset.Inv

/-- R303, R202, R178, R30, R38, R232, R266: every step keeps the invariant: registers in range, ERR fitting STATE,
the sample memory's form, a frame boundary in IDLE, DONE and EOS, a whole frame with matching checksums in DONE,
while BUSY what each position of R304 relies on, and outside a NEXT no variable of it (R20). [The basis: The spec
itself marks R303, R304, R202, R178, R25, R201 as derived. A step from a BUSY state is one element: the model's
choice, log entry 3.] -/
def Obligations.InvIsKept : Prop := ∀ s t : State, s.Inv → step s = .next t → t.Inv

/-- R148, R364: from every state of the invariant whose source is within what `src_pos` counts the step answers a
next state, an accepted NEXT included: no width outside 1 to 64 is ever read. [The basis: The spec itself marks
R392 as derived. A step from a BUSY state is one element: the model's choice, log entry 3.] -/
def Obligations.EveryStepAnswers : Prop := ∀ s : State, s.Inv → s.sourceFits = true → ∃ t, step s = .next t

/-- R306, R350, R30: in FAULT nothing but RESET and the reset line changes anything: a step only takes the host's
next access. [The basis: Configuration writes in FAULT follow R306 over R26's words: log entry 8.] -/
def Obligations.FaultIsSticky : Prop :=
  ∀ s t : State, s.status = .fault → step s = .next t → (∀ rest, s.host ≠ .resetLine :: rest) →
    (∀ n v rest, s.host = .write n v :: rest → commandOfWrite n v ≠ some .reset) →
      t = { s with host := s.host.tail, hostData := t.hostData, freeCount := t.freeCount }

/-- R70, R71, R175: an element takes bytes from the front of the source, `src_pos` counts each, and the CRC units
see each while their tee is on, and nothing else: they are cleared only where a frame header starts. [The basis: A
step from a BUSY state is one element: the model's choice, log entry 3.] -/
def Obligations.ElementsOnlyPull : Prop :=
  ∀ s t : State, s.stream.brN ≤ 7 → s.status = .busy → s.host = [] → step s = .next t →
    ∃ ps : List Byte,
      s.stream.bytes = ps ++ t.stream.bytes ∧ t.stream.term = s.stream.term ∧
        t.stream.srcPos = s.stream.srcPos + BitVec.ofNat 64 ps.length ∧ t.stream.brN ≤ 7 ∧
        t.stream.crc8 =
          (if s.openElement.stream.tee8 then ps.foldl crc8Update s.openElement.stream.crc8
          else s.openElement.stream.crc8) ∧
        t.stream.crc16 =
          if s.openElement.stream.tee16 then ps.foldl crc16Update s.openElement.stream.crc16
          else s.openElement.stream.crc16

/-- R32, R38, R250, R384: no element changes the configuration, the window selector or another channel's record or
samples, and the frame counter moves only with success. [The basis: A step from a BUSY state is one element: the
model's choice, log entry 3.] -/
def Obligations.ElementsKeepTheRest : Prop :=
  ∀ s t : State, s.status = .busy → s.host = [] → step s = .next t →
    t.cfgRate = s.cfgRate ∧ t.cfgBps = s.cfgBps ∧ t.dSel = s.dSel ∧ t.params = s.params ∧ t.host = [] ∧
      t.hostData = s.hostData ∧ t.freeCount = s.freeCount ∧
      t.frameCount = (if t.status = .done then s.frameCount + 1 else s.frameCount) ∧
      (∀ c, c ≠ s.seq.ch → t.sub c = s.sub c) ∧ ∀ a, outsideBlock s a → memRead t.d a = memRead s.d a

/-- R178: whenever a NEXT ends in DONE, `FH_CRC8 = crc8`, and under `P_CRC16_CHECK` `FT_CRC16 = crc16`. [The basis:
The spec itself marks R178 as derived.] -/
def Obligations.ChecksumsMatchInDone : Prop :=
  ∀ s t : State, s.Inv → issuesNext s → step s = .next t → t.status = .done →
    t.hdr.crc8 = t.dp.crc8 ∧ (t.params.crc16Check = true → t.ftCrc16 = t.dp.crc16)

/-- R304, R307, R392: every NEXT over a finite source ends, in DONE, EOS or FAULT; it is one step, the outcome of
its elements one after another, with the host's further accesses still to come; and no step from a state that is
not BUSY shows BUSY. [The basis: The spec itself marks R304, R307, R392 as derived. The elements of a NEXT are the
model's: log entry 3.] -/
def Obligations.NextTerminates : Prop :=
  let ended := fun t : State => t.status = .done ∨ t.status = .eos ∨ t.status = .fault
  (∀ s : State, s.Inv → s.sourceFits = true → s.status = .busy → ∃ k t, elementsTo k s t ∧ ended t) ∧
    (∀ (s : State) (v : Word) (rest : List HostEvent), s.Inv → s.sourceFits = true → writable s →
        s.host = .write 2 v :: rest → v.extractLsb' 0 2 = 1#2 →
          ∃ k t, step s = .next t ∧ ended t ∧ t.host = rest ∧
            elementsTo k { s with host := rest, status := .busy, err := .none, errInner := 0 } t) ∧
    ∀ s t : State, s.Inv → s.status ≠ .busy → step s = .next t → t.status ≠ .busy

/-- R176, R177: a NEXT that ends in DONE: the bytes taken are header, stored CRC-8, rest, and footer; `crc8` is the
CRC-8 of the header and equals the stored byte; `crc16` is the CRC-16 of everything before the footer, and equals
it under `P_CRC16_CHECK`. -/
def Obligations.ChecksumsCoverTheFrame : Prop :=
  ∀ s t : State, s.Inv → issuesNext s → step s = .next t → t.status = .done →
    ∃ (hs body : List Byte) (hi lo : Byte),
      s.src.bytes = hs ++ [t.hdr.crc8] ++ body ++ [hi, lo] ++ t.src.bytes ∧
        t.dp.crc8 = crc8Of hs ∧ t.hdr.crc8 = crc8Of hs ∧ t.dp.crc16 = crc16Of (hs ++ [t.hdr.crc8] ++ body) ∧
        t.ftCrc16 = hi ++ lo ∧ (t.params.crc16Check = true → hi ++ lo = crc16Of (hs ++ [t.hdr.crc8] ++ body))

/-- R308, R38: a NEXT issued in two states that differ only in the frame counter, `src_pos`, `D`, the window
selector and what the host last read ends in states that differ only in these, and in DONE the frame's samples are
equal too. [The basis: The spec itself marks R308 as derived.] -/
def Obligations.FramesAreIndependent : Prop :=
  ∀ s s' t t' : State, SameButHistory s s' → s.Inv → s'.Inv → issuesNext s → step s = .next t → step s' = .next t' →
    SameButHistory t t' ∧
      (t.status = .done →
        ∀ c < t.hdr.nch.toNat, ∀ i < t.hdr.bs.toNat, memRead t.d (sampleAddr c i) = memRead t'.d (sampleAddr c i))

/-- R308: the result of a NEXT is a function of `CFG_RATE`, `CFG_BPS`, the two parameters and the bytes of the
source from the current position on: from any two states of the invariant that agree in these, whatever their
registers, files and samples hold, a NEXT has the same result. [The basis: The spec itself marks R308 as derived.] -/
def Obligations.FramesDependOnTheirBytes : Prop :=
  ∀ s s' t : State, s.Inv → s'.Inv → issuesNext s → issuesNext s' → sameInputs s s' → s'.sourceFits = true →
    step s = .next t → ∃ t', step s' = .next t' ∧ sameResult t t'

end
end

