-- ==== Sys2Proof/Laws/BitReader.lean ====
section
/-! SUPPORT. Laws of the BitReader over the stream bits not yet consumed: what one bit, a field and a unary count take
from them, and when they stop. -/

namespace Sys2Proof.Machine

@[simp] theorem length_msbBits (n v : Nat) : (msbBits n v).length = n := by
  induction n with
  | zero => rfl
  | succ n ih => simp [msbBits, ih]

/-- The number whose bits are listed, the most significant first, on top of the value so far. -/
def bitsValue (v : Nat) (bits : List Bool) : Nat := bits.foldl (fun a b => 2 * a + b.toNat) v

@[simp] theorem bitsValue_nil (v : Nat) : bitsValue v [] = v := rfl

@[simp] theorem bitsValue_cons (v : Nat) (b : Bool) (bs : List Bool) :
    bitsValue v (b :: bs) = bitsValue (2 * v + b.toNat) bs := rfl

theorem bitsValue_append (v : Nat) (as bs : List Bool) :
    bitsValue v (as ++ bs) = bitsValue (bitsValue v as) bs := by
  simp [bitsValue, List.foldl_append]

theorem bitsValue_eq (v : Nat) (bs : List Bool) : bitsValue v bs = v * 2 ^ bs.length + bitsValue 0 bs := by
  induction bs generalizing v with
  | nil => simp
  | cons b bs ih =>
    rw [bitsValue_cons, bitsValue_cons, ih, ih (2 * 0 + b.toNat), List.length_cons, pow_succ]
    ring

theorem bitsValue_lt (bs : List Bool) : bitsValue 0 bs < 2 ^ bs.length := by
  induction bs with
  | nil => simp
  | cons b bs ih =>
    rw [bitsValue_cons, bitsValue_eq, List.length_cons, pow_succ]
    cases b <;> simp <;> omega

/-- The low `n` bits of `v`, listed and read back. -/
theorem bitsValue_msbBits (n v : Nat) : bitsValue 0 (msbBits n v) = v % 2 ^ n := by
  induction n with
  | zero => simp [msbBits, Nat.mod_one]
  | succ n ih =>
    rw [msbBits, bitsValue_cons, bitsValue_eq, ih, length_msbBits, Nat.mod_pow_succ, Nat.testBit_eq_decide_div_mod_eq]
    rcases Nat.mod_two_eq_zero_or_one (v / 2 ^ n) with h | h <;> simp [h]; omega

theorem msbBits_bitsValue (bs : List Bool) (n : Nat) (h : bs.length = n) : msbBits n (bitsValue 0 bs) = bs := by
  induction bs generalizing n with
  | nil => subst h; rfl
  | cons b bs ih =>
    subst h
    have hlt := bitsValue_lt bs
    rw [List.length_cons, msbBits, bitsValue_cons, bitsValue_eq]
    congr 1
    · rw [Nat.testBit_eq_decide_div_mod_eq, show 2 * 0 + b.toNat = b.toNat by omega, Nat.add_comm,
        Nat.add_mul_div_right _ _ (Nat.two_pow_pos _), Nat.div_eq_of_lt hlt]
      cases b <;> simp
    · conv_rhs => rw [← ih bs.length rfl]
      have key : ∀ m k x : Nat, m ≤ k → msbBits m (x * 2 ^ k + bitsValue 0 bs) = msbBits m (bitsValue 0 bs) := by
        intro m k x hm
        induction m with
        | zero => rfl
        | succ m ihm =>
          rw [msbBits, msbBits, ihm (by omega)]
          congr 1
          rw [Nat.testBit_eq_decide_div_mod_eq, Nat.testBit_eq_decide_div_mod_eq,
            show k = (k - m - 1) + 1 + m by omega, pow_add, ← Nat.mul_assoc, Nat.add_comm,
            Nat.add_mul_div_right _ _ (Nat.two_pow_pos _), pow_succ, ← Nat.mul_assoc, Nat.add_mul_mod_self_right]
      exact key _ _ _ le_rfl

/-- A pull changes neither the unread bits nor the terminal condition. -/
theorem pull_spec {r r' : Stream} {b : Byte} (h : r.pull = some (b, r')) :
    r.bytes = b :: r'.bytes ∧ r'.term = r.term ∧ r'.srcPos = r.srcPos + 1 ∧ r'.brCur = r.brCur ∧
      r'.brN = r.brN ∧ r'.tee8 = r.tee8 ∧ r'.tee16 = r.tee16 ∧
      r'.crc8 = (if r.tee8 then crc8Update r.crc8 b else r.crc8) ∧
      r'.crc16 = if r.tee16 then crc16Update r.crc16 b else r.crc16 := by
  unfold Stream.pull at h
  split at h
  · cases h
  · next hb =>
    cases h
    exact ⟨hb, rfl, rfl, rfl, rfl, rfl, rfl, rfl, rfl⟩

theorem pull_eq_none {r : Stream} : r.pull = none ↔ r.bytes = [] := by
  unfold Stream.pull
  split <;> simp_all

/-- One bit takes the first bit not yet consumed. -/
theorem readBit_spec {r r' : Stream} {b : Bool} (h : r.readBit = some (b, r')) :
    r.upcoming = b :: r'.upcoming ∧ r'.term = r.term ∧ r'.tee8 = r.tee8 ∧ r'.tee16 = r.tee16 := by
  unfold Stream.readBit at h
  split at h
  · next n hn =>
    cases h
    refine ⟨?_, rfl, rfl, rfl⟩
    simp [Stream.upcoming, hn, msbBits, BitVec.getLsbD]
  · next hn =>
    split at h
    · cases h
    · next b0 r1 hp =>
      cases h
      obtain ⟨h1, h2, -, -, -, h6, h7, -, -⟩ := pull_spec hp
      refine ⟨?_, h2, h6, h7⟩
      simp [Stream.upcoming, hn, h1, msbBits, BitVec.getLsbD]

/-- No bit is left exactly when a read of one bit fails. -/
theorem readBit_eq_none {r : Stream} : r.readBit = none ↔ r.upcoming = [] := by
  unfold Stream.readBit
  split
  · next n hn => simp [Stream.upcoming, hn, msbBits]
  · next hn =>
    split
    · next hp =>
      simp [Stream.upcoming, hn, msbBits, pull_eq_none.1 hp]
    · next b0 r1 hp =>
      simp [Stream.upcoming, hn, msbBits, (pull_spec hp).1]

theorem readBit_of_upcoming {r : Stream} {b : Bool} {rest : List Bool} (h : r.upcoming = b :: rest) :
    ∃ r', r.readBit = some (b, r') ∧ r'.upcoming = rest := by
  cases hb : r.readBit with
  | none => rw [readBit_eq_none.1 hb] at h; cases h
  | some p =>
    obtain ⟨b', r'⟩ := p
    have := (readBit_spec hb).1
    rw [h] at this
    cases this
    exact ⟨r', rfl, rfl⟩

theorem readLoop_of_upcoming (bits : List Bool) {r : Stream} {rest : List Bool} (v : Nat)
    (h : r.upcoming = bits ++ rest) :
    ∃ r', r.readLoop bits.length v = .ok (bitsValue v bits) r' ∧ r'.upcoming = rest := by
  induction bits generalizing r v with
  | nil => exact ⟨r, rfl, h⟩
  | cons b bs ih =>
    obtain ⟨r1, h1, h2⟩ := readBit_of_upcoming h
    obtain ⟨r', h3, h4⟩ := ih (2 * v + b.toNat) h2
    exact ⟨r', by simp [Stream.readLoop, h1, h3], h4⟩

/-- A field takes its bits from the front, as a number with the first bit the most significant (R141). -/
theorem read_of_upcoming {r : Stream} {bits rest : List Bool} {n : Nat} (hn : bits.length = n)
    (h : r.upcoming = bits ++ rest) :
    ∃ r', r.read n = .ok (bitsValue 0 bits) r' ∧ r'.upcoming = rest := by
  subst hn
  exact readLoop_of_upcoming bits 0 h

/-- A field that the stream holds only in part stops the read with nothing left (R142). -/
theorem readLoop_stop {n v : Nat} {r r' : Stream} (h : r.readLoop n v = .stop r') :
    r.upcoming.length < n ∧ r'.upcoming = [] ∧ r'.term = r.term := by
  induction n generalizing r v with
  | zero => cases h
  | succ n ih =>
    rw [Stream.readLoop] at h
    split at h
    · next hb =>
      cases h
      simp [readBit_eq_none.1 hb]
    · next b r1 hb =>
      obtain ⟨h1, h2, -, -⟩ := readBit_spec hb
      obtain ⟨h3, h4, h5⟩ := ih h
      exact ⟨by rw [h1, List.length_cons]; omega, h4, h5.trans h2⟩

theorem length_flatMap_msbBits (l : List Byte) : (l.flatMap fun b => msbBits 8 b.toNat).length = 8 * l.length := by
  induction l with
  | nil => rfl
  | cons b l ih => simp [ih]; omega

theorem bitsLeft_eq (r : Stream) : r.bitsLeft = r.upcoming.length := by
  rw [Stream.bitsLeft, Stream.upcoming, List.length_append, length_msbBits, length_flatMap_msbBits]

theorem unaryLoop_of_upcoming (k fuel q : Nat) {r : Stream} {rest : List Bool}
    (h : r.upcoming = List.replicate k false ++ true :: rest) (hf : k < fuel) :
    ∃ r', r.unaryLoop fuel q = .ok (q + k) r' ∧ r'.upcoming = rest := by
  induction k generalizing r fuel q with
  | zero =>
    obtain ⟨f, rfl⟩ := Nat.exists_eq_add_of_lt hf
    obtain ⟨r1, h1, h2⟩ := readBit_of_upcoming h
    exact ⟨r1, by simp [Stream.unaryLoop, h1], h2⟩
  | succ k ih =>
    obtain ⟨f, rfl⟩ : ∃ f, fuel = f + 1 := ⟨fuel - 1, by omega⟩
    obtain ⟨r1, h1, h2⟩ := readBit_of_upcoming (b := false) (rest := List.replicate k false ++ true :: rest)
      (by rw [h, List.replicate_succ, List.cons_append])
    obtain ⟨r', h3, h4⟩ := ih f (q + 1) h2 (by omega)
    refine ⟨r', ?_, h4⟩
    simp only [Stream.unaryLoop, h1, h3]
    congr 1
    omega

/-- A unary count is the number of 0 bits before the first 1 bit, which it takes too (R145). -/
theorem readUnary_of_upcoming (k : Nat) {r : Stream} {rest : List Bool}
    (h : r.upcoming = List.replicate k false ++ true :: rest) :
    ∃ r', r.readUnary = .ok k r' ∧ r'.upcoming = rest := by
  have hf : k < r.bitsLeft + 1 := by
    rw [bitsLeft_eq, h]
    simp
  obtain ⟨r', h1, h2⟩ := unaryLoop_of_upcoming k _ 0 h hf
  exact ⟨r', by simpa [Stream.readUnary] using h1, h2⟩

/-- Aligning leaves exactly the bytes not yet pulled. -/
theorem upcoming_align (r : Stream) : r.align.upcoming = r.bytes.flatMap fun b => msbBits 8 b.toNat := by
  simp [Stream.align, Stream.upcoming, msbBits]

end Sys2Proof.Machine
end

