-- ==== Sys2Proof/Laws/Memory.lean ====
section
/-! SUPPORT. Laws of the sample memory: the canonical form is kept, a written element reads back, every other element is
left alone. -/

namespace Sys2Proof.Machine

@[simp] theorem memRead_nil (a : Nat) : memRead [] a = none := rfl

theorem memWf_iff_pairwise (m : SampleMem) : memWf m = true ↔ m.Pairwise fun x y => x.1 < y.1 := by
  induction m with
  | nil => simp [memWf]
  | cons a t ih =>
    cases t with
    | nil => simp [memWf]
    | cons b rest =>
      simp only [memWf, Bool.and_eq_true, decide_eq_true_eq, ih, List.pairwise_cons, List.mem_cons,
        forall_eq_or_imp]
      constructor
      · rintro ⟨hab, hb, hr⟩
        exact ⟨⟨hab, fun e he => hab.trans (hb e he)⟩, hb, hr⟩
      · rintro ⟨⟨hab, _⟩, hb, hr⟩
        exact ⟨hab, hb, hr⟩

theorem mem_memBlock {base : Nat} {vs : List Word} {e : Nat × Word} (h : e ∈ memBlock base vs) :
    base ≤ e.1 ∧ e.1 < base + vs.length := by
  induction vs generalizing base with
  | nil => simp [memBlock] at h
  | cons v vs ih =>
    rcases List.mem_cons.1 h with rfl | h
    · simp
    · have := ih h
      simp only [List.length_cons]
      omega

theorem memBlock_pairwise (base : Nat) (vs : List Word) :
    (memBlock base vs).Pairwise fun x y => x.1 < y.1 := by
  induction vs generalizing base with
  | nil => simp [memBlock]
  | cons v vs ih =>
    refine List.pairwise_cons.2 ⟨fun e he => ?_, ih _⟩
    have := (mem_memBlock he).1
    show base < e.1
    omega

/-- Writing a block keeps the canonical form. -/
theorem memWf_memWriteBlock {m : SampleMem} (h : memWf m = true) (base : Nat) (vs : List Word) :
    memWf (memWriteBlock m base vs) = true := by
  rw [memWf_iff_pairwise] at h ⊢
  rw [memWriteBlock, List.append_assoc, List.pairwise_append]
  refine ⟨h.filter _, List.pairwise_append.2 ⟨memBlock_pairwise _ _, h.filter _, fun x hx y hy => ?_⟩,
    fun x hx y hy => ?_⟩
  · have := mem_memBlock hx
    have := (List.mem_filter.1 hy).2
    simp only [decide_eq_true_eq] at this
    omega
  · have h1 := (List.mem_filter.1 hx).2
    simp only [decide_eq_true_eq] at h1
    rcases List.mem_append.1 hy with hy | hy
    · have := mem_memBlock hy
      omega
    · have := (List.mem_filter.1 hy).2
      simp only [decide_eq_true_eq] at this
      omega

/-- The memory after reset has the canonical form. -/
theorem memWf_reset : memWf State.reset.d = true := rfl

theorem memRead_append (m₁ m₂ : SampleMem) (a : Nat) :
    memRead (m₁ ++ m₂) a = (memRead m₁ a).or (memRead m₂ a) := by
  simp only [memRead, List.find?_append]
  cases m₁.find? fun e => decide (e.1 = a) <;> simp

theorem memRead_filter {m : SampleMem} {a : Nat} (p : Nat × Word → Bool)
    (hp : ∀ e : Nat × Word, e.1 = a → p e = true) : memRead (m.filter p) a = memRead m a := by
  simp only [memRead, List.find?_filter]
  congr 2
  funext e
  by_cases h : e.1 = a
  · simp [h, hp e h]
  · simp [h]

theorem memRead_filter_none {m : SampleMem} {a : Nat} (p : Nat × Word → Bool)
    (hp : ∀ e : Nat × Word, e.1 = a → p e = false) : memRead (m.filter p) a = none := by
  simp only [memRead, Option.map_eq_none_iff, List.find?_eq_none, List.mem_filter, decide_eq_true_eq]
  rintro e ⟨_, he⟩ ha
  simp [hp e ha] at he

theorem memRead_memBlock (base : Nat) (vs : List Word) (a : Nat) :
    memRead (memBlock base vs) a = if base ≤ a then vs[a - base]? else none := by
  induction vs generalizing base with
  | nil => simp [memBlock]
  | cons v vs ih =>
    have step : memRead (memBlock base (v :: vs)) a =
        if base = a then some v else memRead (memBlock (base + 1) vs) a := by
      simp only [memRead, memBlock, List.find?_cons]
      by_cases h : base = a <;> simp [h]
    rw [step, ih]
    by_cases h : base = a
    · subst h; simp
    · rw [if_neg h]
      by_cases hle : base ≤ a
      · rw [if_pos hle, if_pos (by omega), show a - base = (a - (base + 1)) + 1 by omega,
          List.getElem?_cons_succ]
      · rw [if_neg hle, if_neg (by omega)]

/-- All a block write does: an element of the block reads as the value written, any other as before. -/
theorem memRead_memWriteBlock (m : SampleMem) (base : Nat) (vs : List Word) (a : Nat) :
    memRead (memWriteBlock m base vs) a =
      if base ≤ a ∧ a < base + vs.length then vs[a - base]? else memRead m a := by
  rw [memWriteBlock, memRead_append, memRead_append, memRead_memBlock]
  by_cases h1 : a < base
  · rw [memRead_filter _ (by rintro e rfl; simpa using h1), if_neg (by omega), if_neg (by omega),
      memRead_filter_none _ (by rintro e rfl; simp; omega)]
    cases memRead m a <;> simp
  · rw [memRead_filter_none _ (by rintro e rfl; simpa using h1), if_pos (by omega)]
    by_cases h2 : a < base + vs.length
    · rw [if_pos ⟨by omega, h2⟩, List.getElem?_eq_getElem (by omega)]
      simp
    · rw [memRead_filter _ (by rintro e rfl; simp; omega), if_neg (by omega),
        List.getElem?_eq_none (by omega)]
      simp

theorem mem_memWriteBlock_lt {m : SampleMem} {base lim : Nat} {vs : List Word}
    (h : ∀ e ∈ m, e.1 < lim) (hb : base + vs.length ≤ lim) :
    ∀ e ∈ memWriteBlock m base vs, e.1 < lim := by
  intro e he
  rw [memWriteBlock, List.mem_append, List.mem_append] at he
  rcases he with (he | he) | he
  · exact h e (List.mem_filter.1 he).1
  · have := (mem_memBlock he).2
    omega
  · exact h e (List.mem_filter.1 he).1

end Sys2Proof.Machine
end

