-- ==== Sys2Proof/Laws/State.lean ====
section
/-! SUPPORT. The fields of a state after each named update: no later proof unfolds a record update. -/

namespace Sys2Proof.Machine

-- One lemma after another: hundreds of small proofs at once would each take a thread.
set_option Elab.async false

/-! ### Source and datapath together -/

@[simp] theorem State.stream_toSource (s : State) : s.stream.toSource = s.src := rfl

@[simp] theorem State.stream_toDatapath (s : State) : s.stream.toDatapath = s.dp := rfl

/-! ### `raise` -/

@[simp] theorem State.raise_src (s : State) (k : ErrKind) (info : BitVec 32) :
    (s.raise k info).src = s.src := rfl

@[simp] theorem State.raise_dp (s : State) (k : ErrKind) (info : BitVec 32) :
    (s.raise k info).dp = s.dp := rfl

@[simp] theorem State.raise_cfgRate (s : State) (k : ErrKind) (info : BitVec 32) :
    (s.raise k info).cfgRate = s.cfgRate := rfl

@[simp] theorem State.raise_cfgBps (s : State) (k : ErrKind) (info : BitVec 32) :
    (s.raise k info).cfgBps = s.cfgBps := rfl

@[simp] theorem State.raise_status (s : State) (k : ErrKind) (info : BitVec 32) :
    (s.raise k info).status = .fault := rfl

@[simp] theorem State.raise_err (s : State) (k : ErrKind) (info : BitVec 32) :
    (s.raise k info).err = k := rfl

@[simp] theorem State.raise_errInner (s : State) (k : ErrKind) (info : BitVec 32) :
    (s.raise k info).errInner = info := rfl

@[simp] theorem State.raise_frameCount (s : State) (k : ErrKind) (info : BitVec 32) :
    (s.raise k info).frameCount = s.frameCount := rfl

@[simp] theorem State.raise_hdr (s : State) (k : ErrKind) (info : BitVec 32) :
    (s.raise k info).hdr = s.hdr := rfl

@[simp] theorem State.raise_subs (s : State) (k : ErrKind) (info : BitVec 32) :
    (s.raise k info).subs = s.subs := rfl

@[simp] theorem State.raise_ftCrc16 (s : State) (k : ErrKind) (info : BitVec 32) :
    (s.raise k info).ftCrc16 = s.ftCrc16 := rfl

@[simp] theorem State.raise_files (s : State) (k : ErrKind) (info : BitVec 32) :
    (s.raise k info).files = s.files := rfl

@[simp] theorem State.raise_d (s : State) (k : ErrKind) (info : BitVec 32) :
    (s.raise k info).d = s.d := rfl

@[simp] theorem State.raise_dSel (s : State) (k : ErrKind) (info : BitVec 32) :
    (s.raise k info).dSel = s.dSel := rfl

@[simp] theorem State.raise_seq (s : State) (k : ErrKind) (info : BitVec 32) :
    (s.raise k info).seq = Seq.start := rfl

@[simp] theorem State.raise_params (s : State) (k : ErrKind) (info : BitVec 32) :
    (s.raise k info).params = s.params := rfl

@[simp] theorem State.raise_host (s : State) (k : ErrKind) (info : BitVec 32) :
    (s.raise k info).host = s.host := rfl

@[simp] theorem State.raise_hostData (s : State) (k : ErrKind) (info : BitVec 32) :
    (s.raise k info).hostData = s.hostData := rfl

@[simp] theorem State.raise_freeCount (s : State) (k : ErrKind) (info : BitVec 32) :
    (s.raise k info).freeCount = s.freeCount := rfl

/-! ### `endOfStream` -/

@[simp] theorem State.endOfStream_src (s : State) :
    (s.endOfStream).src = s.src := rfl

@[simp] theorem State.endOfStream_dp (s : State) :
    (s.endOfStream).dp = { s.dp with tee8 := false, tee16 := false } := rfl

@[simp] theorem State.endOfStream_cfgRate (s : State) :
    (s.endOfStream).cfgRate = s.cfgRate := rfl

@[simp] theorem State.endOfStream_cfgBps (s : State) :
    (s.endOfStream).cfgBps = s.cfgBps := rfl

@[simp] theorem State.endOfStream_status (s : State) :
    (s.endOfStream).status = .eos := rfl

@[simp] theorem State.endOfStream_err (s : State) :
    (s.endOfStream).err = .endOfStream := rfl

@[simp] theorem State.endOfStream_errInner (s : State) :
    (s.endOfStream).errInner = 0 := rfl

@[simp] theorem State.endOfStream_frameCount (s : State) :
    (s.endOfStream).frameCount = s.frameCount := rfl

@[simp] theorem State.endOfStream_hdr (s : State) :
    (s.endOfStream).hdr = s.hdr := rfl

@[simp] theorem State.endOfStream_subs (s : State) :
    (s.endOfStream).subs = s.subs := rfl

@[simp] theorem State.endOfStream_ftCrc16 (s : State) :
    (s.endOfStream).ftCrc16 = s.ftCrc16 := rfl

@[simp] theorem State.endOfStream_files (s : State) :
    (s.endOfStream).files = s.files := rfl

@[simp] theorem State.endOfStream_d (s : State) :
    (s.endOfStream).d = s.d := rfl

@[simp] theorem State.endOfStream_dSel (s : State) :
    (s.endOfStream).dSel = s.dSel := rfl

@[simp] theorem State.endOfStream_seq (s : State) :
    (s.endOfStream).seq = Seq.start := rfl

@[simp] theorem State.endOfStream_params (s : State) :
    (s.endOfStream).params = s.params := rfl

@[simp] theorem State.endOfStream_host (s : State) :
    (s.endOfStream).host = s.host := rfl

@[simp] theorem State.endOfStream_hostData (s : State) :
    (s.endOfStream).hostData = s.hostData := rfl

@[simp] theorem State.endOfStream_freeCount (s : State) :
    (s.endOfStream).freeCount = s.freeCount := rfl

/-! ### `frameDone` -/

@[simp] theorem State.frameDone_src (s : State) :
    (s.frameDone).src = s.src := rfl

@[simp] theorem State.frameDone_dp (s : State) :
    (s.frameDone).dp = s.dp := rfl

@[simp] theorem State.frameDone_cfgRate (s : State) :
    (s.frameDone).cfgRate = s.cfgRate := rfl

@[simp] theorem State.frameDone_cfgBps (s : State) :
    (s.frameDone).cfgBps = s.cfgBps := rfl

@[simp] theorem State.frameDone_status (s : State) :
    (s.frameDone).status = .done := rfl

@[simp] theorem State.frameDone_err (s : State) :
    (s.frameDone).err = s.err := rfl

@[simp] theorem State.frameDone_errInner (s : State) :
    (s.frameDone).errInner = s.errInner := rfl

@[simp] theorem State.frameDone_frameCount (s : State) :
    (s.frameDone).frameCount = s.frameCount + 1 := rfl

@[simp] theorem State.frameDone_hdr (s : State) :
    (s.frameDone).hdr = s.hdr := rfl

@[simp] theorem State.frameDone_subs (s : State) :
    (s.frameDone).subs = s.subs := rfl

@[simp] theorem State.frameDone_ftCrc16 (s : State) :
    (s.frameDone).ftCrc16 = s.ftCrc16 := rfl

@[simp] theorem State.frameDone_files (s : State) :
    (s.frameDone).files = s.files := rfl

@[simp] theorem State.frameDone_d (s : State) :
    (s.frameDone).d = s.d := rfl

@[simp] theorem State.frameDone_dSel (s : State) :
    (s.frameDone).dSel = s.dSel := rfl

@[simp] theorem State.frameDone_seq (s : State) :
    (s.frameDone).seq = Seq.start := rfl

@[simp] theorem State.frameDone_params (s : State) :
    (s.frameDone).params = s.params := rfl

@[simp] theorem State.frameDone_host (s : State) :
    (s.frameDone).host = s.host := rfl

@[simp] theorem State.frameDone_hostData (s : State) :
    (s.frameDone).hostData = s.hostData := rfl

@[simp] theorem State.frameDone_freeCount (s : State) :
    (s.frameDone).freeCount = s.freeCount := rfl

/-! ### `withStream` -/

@[simp] theorem State.withStream_self (s : State) : s.withStream s.stream = s := rfl

@[simp] theorem State.withStream_stream (s : State) (r : Stream) : (s.withStream r).stream = r := rfl

@[simp] theorem State.withStream_src (s : State) (r : Stream) :
    (s.withStream r).src = r.toSource := rfl

@[simp] theorem State.withStream_dp (s : State) (r : Stream) :
    (s.withStream r).dp = r.toDatapath := rfl

@[simp] theorem State.withStream_cfgRate (s : State) (r : Stream) :
    (s.withStream r).cfgRate = s.cfgRate := rfl

@[simp] theorem State.withStream_cfgBps (s : State) (r : Stream) :
    (s.withStream r).cfgBps = s.cfgBps := rfl

@[simp] theorem State.withStream_status (s : State) (r : Stream) :
    (s.withStream r).status = s.status := rfl

@[simp] theorem State.withStream_err (s : State) (r : Stream) :
    (s.withStream r).err = s.err := rfl

@[simp] theorem State.withStream_errInner (s : State) (r : Stream) :
    (s.withStream r).errInner = s.errInner := rfl

@[simp] theorem State.withStream_frameCount (s : State) (r : Stream) :
    (s.withStream r).frameCount = s.frameCount := rfl

@[simp] theorem State.withStream_hdr (s : State) (r : Stream) :
    (s.withStream r).hdr = s.hdr := rfl

@[simp] theorem State.withStream_subs (s : State) (r : Stream) :
    (s.withStream r).subs = s.subs := rfl

@[simp] theorem State.withStream_ftCrc16 (s : State) (r : Stream) :
    (s.withStream r).ftCrc16 = s.ftCrc16 := rfl

@[simp] theorem State.withStream_files (s : State) (r : Stream) :
    (s.withStream r).files = s.files := rfl

@[simp] theorem State.withStream_d (s : State) (r : Stream) :
    (s.withStream r).d = s.d := rfl

@[simp] theorem State.withStream_dSel (s : State) (r : Stream) :
    (s.withStream r).dSel = s.dSel := rfl

@[simp] theorem State.withStream_seq (s : State) (r : Stream) :
    (s.withStream r).seq = s.seq := rfl

@[simp] theorem State.withStream_params (s : State) (r : Stream) :
    (s.withStream r).params = s.params := rfl

@[simp] theorem State.withStream_host (s : State) (r : Stream) :
    (s.withStream r).host = s.host := rfl

@[simp] theorem State.withStream_hostData (s : State) (r : Stream) :
    (s.withStream r).hostData = s.hostData := rfl

@[simp] theorem State.withStream_freeCount (s : State) (r : Stream) :
    (s.withStream r).freeCount = s.freeCount := rfl

/-! ### `goto` and `gotoIdx` -/

@[simp] theorem State.goto_src (s : State) (p : Pos) :
    (s.goto p).src = s.src := rfl

@[simp] theorem State.goto_dp (s : State) (p : Pos) :
    (s.goto p).dp = s.dp := rfl

@[simp] theorem State.goto_cfgRate (s : State) (p : Pos) :
    (s.goto p).cfgRate = s.cfgRate := rfl

@[simp] theorem State.goto_cfgBps (s : State) (p : Pos) :
    (s.goto p).cfgBps = s.cfgBps := rfl

@[simp] theorem State.goto_status (s : State) (p : Pos) :
    (s.goto p).status = s.status := rfl

@[simp] theorem State.goto_err (s : State) (p : Pos) :
    (s.goto p).err = s.err := rfl

@[simp] theorem State.goto_errInner (s : State) (p : Pos) :
    (s.goto p).errInner = s.errInner := rfl

@[simp] theorem State.goto_frameCount (s : State) (p : Pos) :
    (s.goto p).frameCount = s.frameCount := rfl

@[simp] theorem State.goto_hdr (s : State) (p : Pos) :
    (s.goto p).hdr = s.hdr := rfl

@[simp] theorem State.goto_subs (s : State) (p : Pos) :
    (s.goto p).subs = s.subs := rfl

@[simp] theorem State.goto_ftCrc16 (s : State) (p : Pos) :
    (s.goto p).ftCrc16 = s.ftCrc16 := rfl

@[simp] theorem State.goto_files (s : State) (p : Pos) :
    (s.goto p).files = s.files := rfl

@[simp] theorem State.goto_d (s : State) (p : Pos) :
    (s.goto p).d = s.d := rfl

@[simp] theorem State.goto_dSel (s : State) (p : Pos) :
    (s.goto p).dSel = s.dSel := rfl

@[simp] theorem State.goto_seq (s : State) (p : Pos) :
    (s.goto p).seq = { s.seq with pos := p } := rfl

@[simp] theorem State.goto_params (s : State) (p : Pos) :
    (s.goto p).params = s.params := rfl

@[simp] theorem State.goto_host (s : State) (p : Pos) :
    (s.goto p).host = s.host := rfl

@[simp] theorem State.goto_hostData (s : State) (p : Pos) :
    (s.goto p).hostData = s.hostData := rfl

@[simp] theorem State.goto_freeCount (s : State) (p : Pos) :
    (s.goto p).freeCount = s.freeCount := rfl

@[simp] theorem State.gotoIdx_src (s : State) (p : Pos) (i : Nat) :
    (s.gotoIdx p i).src = s.src := rfl

@[simp] theorem State.gotoIdx_dp (s : State) (p : Pos) (i : Nat) :
    (s.gotoIdx p i).dp = s.dp := rfl

@[simp] theorem State.gotoIdx_cfgRate (s : State) (p : Pos) (i : Nat) :
    (s.gotoIdx p i).cfgRate = s.cfgRate := rfl

@[simp] theorem State.gotoIdx_cfgBps (s : State) (p : Pos) (i : Nat) :
    (s.gotoIdx p i).cfgBps = s.cfgBps := rfl

@[simp] theorem State.gotoIdx_status (s : State) (p : Pos) (i : Nat) :
    (s.gotoIdx p i).status = s.status := rfl

@[simp] theorem State.gotoIdx_err (s : State) (p : Pos) (i : Nat) :
    (s.gotoIdx p i).err = s.err := rfl

@[simp] theorem State.gotoIdx_errInner (s : State) (p : Pos) (i : Nat) :
    (s.gotoIdx p i).errInner = s.errInner := rfl

@[simp] theorem State.gotoIdx_frameCount (s : State) (p : Pos) (i : Nat) :
    (s.gotoIdx p i).frameCount = s.frameCount := rfl

@[simp] theorem State.gotoIdx_hdr (s : State) (p : Pos) (i : Nat) :
    (s.gotoIdx p i).hdr = s.hdr := rfl

@[simp] theorem State.gotoIdx_subs (s : State) (p : Pos) (i : Nat) :
    (s.gotoIdx p i).subs = s.subs := rfl

@[simp] theorem State.gotoIdx_ftCrc16 (s : State) (p : Pos) (i : Nat) :
    (s.gotoIdx p i).ftCrc16 = s.ftCrc16 := rfl

@[simp] theorem State.gotoIdx_files (s : State) (p : Pos) (i : Nat) :
    (s.gotoIdx p i).files = s.files := rfl

@[simp] theorem State.gotoIdx_d (s : State) (p : Pos) (i : Nat) :
    (s.gotoIdx p i).d = s.d := rfl

@[simp] theorem State.gotoIdx_dSel (s : State) (p : Pos) (i : Nat) :
    (s.gotoIdx p i).dSel = s.dSel := rfl

@[simp] theorem State.gotoIdx_seq (s : State) (p : Pos) (i : Nat) :
    (s.gotoIdx p i).seq = { s.seq with pos := p, idx := i } := rfl

@[simp] theorem State.gotoIdx_params (s : State) (p : Pos) (i : Nat) :
    (s.gotoIdx p i).params = s.params := rfl

@[simp] theorem State.gotoIdx_host (s : State) (p : Pos) (i : Nat) :
    (s.gotoIdx p i).host = s.host := rfl

@[simp] theorem State.gotoIdx_hostData (s : State) (p : Pos) (i : Nat) :
    (s.gotoIdx p i).hostData = s.hostData := rfl

@[simp] theorem State.gotoIdx_freeCount (s : State) (p : Pos) (i : Nat) :
    (s.gotoIdx p i).freeCount = s.freeCount := rfl

/-! ### `gotoSubframe` -/

@[simp] theorem State.gotoSubframe_src (s : State) (c : Nat) :
    (s.gotoSubframe c).src = s.src := rfl

@[simp] theorem State.gotoSubframe_dp (s : State) (c : Nat) :
    (s.gotoSubframe c).dp = s.dp := rfl

@[simp] theorem State.gotoSubframe_cfgRate (s : State) (c : Nat) :
    (s.gotoSubframe c).cfgRate = s.cfgRate := rfl

@[simp] theorem State.gotoSubframe_cfgBps (s : State) (c : Nat) :
    (s.gotoSubframe c).cfgBps = s.cfgBps := rfl

@[simp] theorem State.gotoSubframe_status (s : State) (c : Nat) :
    (s.gotoSubframe c).status = s.status := rfl

@[simp] theorem State.gotoSubframe_err (s : State) (c : Nat) :
    (s.gotoSubframe c).err = s.err := rfl

@[simp] theorem State.gotoSubframe_errInner (s : State) (c : Nat) :
    (s.gotoSubframe c).errInner = s.errInner := rfl

@[simp] theorem State.gotoSubframe_frameCount (s : State) (c : Nat) :
    (s.gotoSubframe c).frameCount = s.frameCount := rfl

@[simp] theorem State.gotoSubframe_hdr (s : State) (c : Nat) :
    (s.gotoSubframe c).hdr = s.hdr := rfl

@[simp] theorem State.gotoSubframe_subs (s : State) (c : Nat) :
    (s.gotoSubframe c).subs = s.subs := rfl

@[simp] theorem State.gotoSubframe_ftCrc16 (s : State) (c : Nat) :
    (s.gotoSubframe c).ftCrc16 = s.ftCrc16 := rfl

@[simp] theorem State.gotoSubframe_files (s : State) (c : Nat) :
    (s.gotoSubframe c).files = s.files := rfl

@[simp] theorem State.gotoSubframe_d (s : State) (c : Nat) :
    (s.gotoSubframe c).d = s.d := rfl

@[simp] theorem State.gotoSubframe_dSel (s : State) (c : Nat) :
    (s.gotoSubframe c).dSel = s.dSel := rfl

@[simp] theorem State.gotoSubframe_seq (s : State) (c : Nat) :
    (s.gotoSubframe c).seq = 
      { s.seq with ch := c, pos := if c < s.hdr.nch.toNat then .subHdr else .pad } := rfl

@[simp] theorem State.gotoSubframe_params (s : State) (c : Nat) :
    (s.gotoSubframe c).params = s.params := rfl

@[simp] theorem State.gotoSubframe_host (s : State) (c : Nat) :
    (s.gotoSubframe c).host = s.host := rfl

@[simp] theorem State.gotoSubframe_hostData (s : State) (c : Nat) :
    (s.gotoSubframe c).hostData = s.hostData := rfl

@[simp] theorem State.gotoSubframe_freeCount (s : State) (c : Nat) :
    (s.gotoSubframe c).freeCount = s.freeCount := rfl

/-! ### `finishSubframe` -/

@[simp] theorem State.finishSubframe_src (s : State) :
    (s.finishSubframe).src = s.src := rfl

@[simp] theorem State.finishSubframe_dp (s : State) :
    (s.finishSubframe).dp = s.dp := rfl

@[simp] theorem State.finishSubframe_cfgRate (s : State) :
    (s.finishSubframe).cfgRate = s.cfgRate := rfl

@[simp] theorem State.finishSubframe_cfgBps (s : State) :
    (s.finishSubframe).cfgBps = s.cfgBps := rfl

@[simp] theorem State.finishSubframe_status (s : State) :
    (s.finishSubframe).status = s.status := rfl

@[simp] theorem State.finishSubframe_err (s : State) :
    (s.finishSubframe).err = s.err := rfl

@[simp] theorem State.finishSubframe_errInner (s : State) :
    (s.finishSubframe).errInner = s.errInner := rfl

@[simp] theorem State.finishSubframe_frameCount (s : State) :
    (s.finishSubframe).frameCount = s.frameCount := rfl

@[simp] theorem State.finishSubframe_hdr (s : State) :
    (s.finishSubframe).hdr = s.hdr := rfl

@[simp] theorem State.finishSubframe_subs (s : State) :
    (s.finishSubframe).subs = s.subs := rfl

@[simp] theorem State.finishSubframe_ftCrc16 (s : State) :
    (s.finishSubframe).ftCrc16 = s.ftCrc16 := rfl

@[simp] theorem State.finishSubframe_files (s : State) :
    (s.finishSubframe).files = s.files := rfl

@[simp] theorem State.finishSubframe_d (s : State) :
    (s.finishSubframe).d = 
      memWriteBlock s.d (sampleAddr s.seq.ch 0)
        ((s.seq.x.take s.hdr.bs.toNat).map fun x : Word => x <<< s.cur.wasted.toNat) := rfl

@[simp] theorem State.finishSubframe_dSel (s : State) :
    (s.finishSubframe).dSel = s.dSel := rfl

@[simp] theorem State.finishSubframe_seq (s : State) :
    (s.finishSubframe).seq = 
      { s.seq with ch := s.seq.ch + 1, pos := if s.seq.ch + 1 < s.hdr.nch.toNat then .subHdr else .pad } := rfl

@[simp] theorem State.finishSubframe_params (s : State) :
    (s.finishSubframe).params = s.params := rfl

@[simp] theorem State.finishSubframe_host (s : State) :
    (s.finishSubframe).host = s.host := rfl

@[simp] theorem State.finishSubframe_hostData (s : State) :
    (s.finishSubframe).hostData = s.hostData := rfl

@[simp] theorem State.finishSubframe_freeCount (s : State) :
    (s.finishSubframe).freeCount = s.freeCount := rfl

/-! ### `hardReset` -/

@[simp] theorem State.hardReset_src (s : State) :
    (s.hardReset).src = s.src := rfl

@[simp] theorem State.hardReset_dp (s : State) :
    (s.hardReset).dp = CoreState.reset.dp := rfl

@[simp] theorem State.hardReset_cfgRate (s : State) :
    (s.hardReset).cfgRate = CoreState.reset.cfgRate := rfl

@[simp] theorem State.hardReset_cfgBps (s : State) :
    (s.hardReset).cfgBps = CoreState.reset.cfgBps := rfl

@[simp] theorem State.hardReset_status (s : State) :
    (s.hardReset).status = CoreState.reset.status := rfl

@[simp] theorem State.hardReset_err (s : State) :
    (s.hardReset).err = CoreState.reset.err := rfl

@[simp] theorem State.hardReset_errInner (s : State) :
    (s.hardReset).errInner = CoreState.reset.errInner := rfl

@[simp] theorem State.hardReset_frameCount (s : State) :
    (s.hardReset).frameCount = CoreState.reset.frameCount := rfl

@[simp] theorem State.hardReset_hdr (s : State) :
    (s.hardReset).hdr = CoreState.reset.hdr := rfl

@[simp] theorem State.hardReset_subs (s : State) :
    (s.hardReset).subs = CoreState.reset.subs := rfl

@[simp] theorem State.hardReset_ftCrc16 (s : State) :
    (s.hardReset).ftCrc16 = CoreState.reset.ftCrc16 := rfl

@[simp] theorem State.hardReset_files (s : State) :
    (s.hardReset).files = CoreState.reset.files := rfl

@[simp] theorem State.hardReset_d (s : State) :
    (s.hardReset).d = CoreState.reset.d := rfl

@[simp] theorem State.hardReset_dSel (s : State) :
    (s.hardReset).dSel = CoreState.reset.dSel := rfl

@[simp] theorem State.hardReset_seq (s : State) :
    (s.hardReset).seq = Seq.start := rfl

@[simp] theorem State.hardReset_params (s : State) :
    (s.hardReset).params = s.params := rfl

@[simp] theorem State.hardReset_host (s : State) :
    (s.hardReset).host = s.host := rfl

@[simp] theorem State.hardReset_hostData (s : State) :
    (s.hardReset).hostData = s.hostData := rfl

@[simp] theorem State.hardReset_freeCount (s : State) :
    (s.hardReset).freeCount = s.freeCount := rfl

/-! ### `openElement`: only the datapath -/

@[simp] theorem State.openElement_src (s : State) :
    (s.openElement).src = s.src := by
  unfold State.openElement; split <;> rfl

@[simp] theorem State.openElement_cfgRate (s : State) :
    (s.openElement).cfgRate = s.cfgRate := by
  unfold State.openElement; split <;> rfl

@[simp] theorem State.openElement_cfgBps (s : State) :
    (s.openElement).cfgBps = s.cfgBps := by
  unfold State.openElement; split <;> rfl

@[simp] theorem State.openElement_status (s : State) :
    (s.openElement).status = s.status := by
  unfold State.openElement; split <;> rfl

@[simp] theorem State.openElement_err (s : State) :
    (s.openElement).err = s.err := by
  unfold State.openElement; split <;> rfl

@[simp] theorem State.openElement_errInner (s : State) :
    (s.openElement).errInner = s.errInner := by
  unfold State.openElement; split <;> rfl

@[simp] theorem State.openElement_frameCount (s : State) :
    (s.openElement).frameCount = s.frameCount := by
  unfold State.openElement; split <;> rfl

@[simp] theorem State.openElement_hdr (s : State) :
    (s.openElement).hdr = s.hdr := by
  unfold State.openElement; split <;> rfl

@[simp] theorem State.openElement_subs (s : State) :
    (s.openElement).subs = s.subs := by
  unfold State.openElement; split <;> rfl

@[simp] theorem State.openElement_ftCrc16 (s : State) :
    (s.openElement).ftCrc16 = s.ftCrc16 := by
  unfold State.openElement; split <;> rfl

@[simp] theorem State.openElement_files (s : State) :
    (s.openElement).files = s.files := by
  unfold State.openElement; split <;> rfl

@[simp] theorem State.openElement_d (s : State) :
    (s.openElement).d = s.d := by
  unfold State.openElement; split <;> rfl

@[simp] theorem State.openElement_dSel (s : State) :
    (s.openElement).dSel = s.dSel := by
  unfold State.openElement; split <;> rfl

@[simp] theorem State.openElement_seq (s : State) :
    (s.openElement).seq = s.seq := by
  unfold State.openElement; split <;> rfl

@[simp] theorem State.openElement_params (s : State) :
    (s.openElement).params = s.params := by
  unfold State.openElement; split <;> rfl

@[simp] theorem State.openElement_host (s : State) :
    (s.openElement).host = s.host := by
  unfold State.openElement; split <;> rfl

@[simp] theorem State.openElement_hostData (s : State) :
    (s.openElement).hostData = s.hostData := by
  unfold State.openElement; split <;> rfl

@[simp] theorem State.openElement_freeCount (s : State) :
    (s.openElement).freeCount = s.freeCount := by
  unfold State.openElement; split <;> rfl

/-! ### `reconstruct`: only the files, the sample memory and the position -/

@[simp] theorem State.reconstruct_src (s : State) :
    (s.reconstruct).src = s.src := by
  unfold State.reconstruct; split <;> rfl

@[simp] theorem State.reconstruct_dp (s : State) :
    (s.reconstruct).dp = s.dp := by
  unfold State.reconstruct; split <;> rfl

@[simp] theorem State.reconstruct_cfgRate (s : State) :
    (s.reconstruct).cfgRate = s.cfgRate := by
  unfold State.reconstruct; split <;> rfl

@[simp] theorem State.reconstruct_cfgBps (s : State) :
    (s.reconstruct).cfgBps = s.cfgBps := by
  unfold State.reconstruct; split <;> rfl

@[simp] theorem State.reconstruct_status (s : State) :
    (s.reconstruct).status = s.status := by
  unfold State.reconstruct; split <;> rfl

@[simp] theorem State.reconstruct_err (s : State) :
    (s.reconstruct).err = s.err := by
  unfold State.reconstruct; split <;> rfl

@[simp] theorem State.reconstruct_errInner (s : State) :
    (s.reconstruct).errInner = s.errInner := by
  unfold State.reconstruct; split <;> rfl

@[simp] theorem State.reconstruct_frameCount (s : State) :
    (s.reconstruct).frameCount = s.frameCount := by
  unfold State.reconstruct; split <;> rfl

@[simp] theorem State.reconstruct_hdr (s : State) :
    (s.reconstruct).hdr = s.hdr := by
  unfold State.reconstruct; split <;> rfl

@[simp] theorem State.reconstruct_subs (s : State) :
    (s.reconstruct).subs = s.subs := by
  unfold State.reconstruct; split <;> rfl

@[simp] theorem State.reconstruct_ftCrc16 (s : State) :
    (s.reconstruct).ftCrc16 = s.ftCrc16 := by
  unfold State.reconstruct; split <;> rfl

@[simp] theorem State.reconstruct_dSel (s : State) :
    (s.reconstruct).dSel = s.dSel := by
  unfold State.reconstruct; split <;> rfl

@[simp] theorem State.reconstruct_params (s : State) :
    (s.reconstruct).params = s.params := by
  unfold State.reconstruct; split <;> rfl

@[simp] theorem State.reconstruct_host (s : State) :
    (s.reconstruct).host = s.host := by
  unfold State.reconstruct; split <;> rfl

@[simp] theorem State.reconstruct_hostData (s : State) :
    (s.reconstruct).hostData = s.hostData := by
  unfold State.reconstruct; split <;> rfl

@[simp] theorem State.reconstruct_freeCount (s : State) :
    (s.reconstruct).freeCount = s.freeCount := by
  unfold State.reconstruct; split <;> rfl

/-! ### `nextPartition`: only the files, the sample memory and the position -/

@[simp] theorem State.nextPartition_src (s : State) :
    (s.nextPartition).src = s.src := by
  unfold State.nextPartition; split <;> simp

@[simp] theorem State.nextPartition_dp (s : State) :
    (s.nextPartition).dp = s.dp := by
  unfold State.nextPartition; split <;> simp

@[simp] theorem State.nextPartition_cfgRate (s : State) :
    (s.nextPartition).cfgRate = s.cfgRate := by
  unfold State.nextPartition; split <;> simp

@[simp] theorem State.nextPartition_cfgBps (s : State) :
    (s.nextPartition).cfgBps = s.cfgBps := by
  unfold State.nextPartition; split <;> simp

@[simp] theorem State.nextPartition_status (s : State) :
    (s.nextPartition).status = s.status := by
  unfold State.nextPartition; split <;> simp

@[simp] theorem State.nextPartition_err (s : State) :
    (s.nextPartition).err = s.err := by
  unfold State.nextPartition; split <;> simp

@[simp] theorem State.nextPartition_errInner (s : State) :
    (s.nextPartition).errInner = s.errInner := by
  unfold State.nextPartition; split <;> simp

@[simp] theorem State.nextPartition_frameCount (s : State) :
    (s.nextPartition).frameCount = s.frameCount := by
  unfold State.nextPartition; split <;> simp

@[simp] theorem State.nextPartition_hdr (s : State) :
    (s.nextPartition).hdr = s.hdr := by
  unfold State.nextPartition; split <;> simp

@[simp] theorem State.nextPartition_subs (s : State) :
    (s.nextPartition).subs = s.subs := by
  unfold State.nextPartition; split <;> simp

@[simp] theorem State.nextPartition_ftCrc16 (s : State) :
    (s.nextPartition).ftCrc16 = s.ftCrc16 := by
  unfold State.nextPartition; split <;> simp

@[simp] theorem State.nextPartition_dSel (s : State) :
    (s.nextPartition).dSel = s.dSel := by
  unfold State.nextPartition; split <;> simp

@[simp] theorem State.nextPartition_params (s : State) :
    (s.nextPartition).params = s.params := by
  unfold State.nextPartition; split <;> simp

@[simp] theorem State.nextPartition_host (s : State) :
    (s.nextPartition).host = s.host := by
  unfold State.nextPartition; split <;> simp

@[simp] theorem State.nextPartition_hostData (s : State) :
    (s.nextPartition).hostData = s.hostData := by
  unfold State.nextPartition; split <;> simp

@[simp] theorem State.nextPartition_freeCount (s : State) :
    (s.nextPartition).freeCount = s.freeCount := by
  unfold State.nextPartition; split <;> simp

/-! ### `startBody`: only the sample memory and the position -/

@[simp] theorem State.startBody_src (s : State) :
    (s.startBody).src = s.src := by
  unfold State.startBody; split <;> try split
  all_goals simp

@[simp] theorem State.startBody_dp (s : State) :
    (s.startBody).dp = s.dp := by
  unfold State.startBody; split <;> try split
  all_goals simp

@[simp] theorem State.startBody_cfgRate (s : State) :
    (s.startBody).cfgRate = s.cfgRate := by
  unfold State.startBody; split <;> try split
  all_goals simp

@[simp] theorem State.startBody_cfgBps (s : State) :
    (s.startBody).cfgBps = s.cfgBps := by
  unfold State.startBody; split <;> try split
  all_goals simp

@[simp] theorem State.startBody_status (s : State) :
    (s.startBody).status = s.status := by
  unfold State.startBody; split <;> try split
  all_goals simp

@[simp] theorem State.startBody_err (s : State) :
    (s.startBody).err = s.err := by
  unfold State.startBody; split <;> try split
  all_goals simp

@[simp] theorem State.startBody_errInner (s : State) :
    (s.startBody).errInner = s.errInner := by
  unfold State.startBody; split <;> try split
  all_goals simp

@[simp] theorem State.startBody_frameCount (s : State) :
    (s.startBody).frameCount = s.frameCount := by
  unfold State.startBody; split <;> try split
  all_goals simp

@[simp] theorem State.startBody_hdr (s : State) :
    (s.startBody).hdr = s.hdr := by
  unfold State.startBody; split <;> try split
  all_goals simp

@[simp] theorem State.startBody_subs (s : State) :
    (s.startBody).subs = s.subs := by
  unfold State.startBody; split <;> try split
  all_goals simp

@[simp] theorem State.startBody_ftCrc16 (s : State) :
    (s.startBody).ftCrc16 = s.ftCrc16 := by
  unfold State.startBody; split <;> try split
  all_goals simp

@[simp] theorem State.startBody_files (s : State) :
    (s.startBody).files = s.files := by
  unfold State.startBody; split <;> try split
  all_goals simp

@[simp] theorem State.startBody_dSel (s : State) :
    (s.startBody).dSel = s.dSel := by
  unfold State.startBody; split <;> try split
  all_goals simp

@[simp] theorem State.startBody_params (s : State) :
    (s.startBody).params = s.params := by
  unfold State.startBody; split <;> try split
  all_goals simp

@[simp] theorem State.startBody_host (s : State) :
    (s.startBody).host = s.host := by
  unfold State.startBody; split <;> try split
  all_goals simp

@[simp] theorem State.startBody_hostData (s : State) :
    (s.startBody).hostData = s.hostData := by
  unfold State.startBody; split <;> try split
  all_goals simp

@[simp] theorem State.startBody_freeCount (s : State) :
    (s.startBody).freeCount = s.freeCount := by
  unfold State.startBody; split <;> try split
  all_goals simp

end Sys2Proof.Machine
end

