-- ==== Sys2Proof/Laws/Ops.lean ====
section
/-! SUPPORT. What the shared operations of a subframe can do: one law each, to be cited instead of unfolding them. -/

namespace Sys2Proof.Machine

/-! ### The record of the channel being decoded -/

/-- The record just written is the current one. -/
theorem sub_setIfInBounds {s : State} {c : Nat} (hc : c < 8) (r : SubRecord) :
    State.sub { s with subs := s.subs.setIfInBounds c r } c = r := by
  simp [State.sub, hc]

/-- Writing one channel's record leaves the others. -/
theorem sub_setIfInBounds_ne {s : State} {c c' : Nat} (h : c ≠ c') (r : SubRecord) :
    State.sub { s with subs := s.subs.setIfInBounds c r } c' = s.sub c' := by
  simp [State.sub, Vector.getElem?_setIfInBounds_ne h]

/-! ### Acceptance of a subframe header -/

/-- A header is refused exactly when no sample bit is left (R232); else it is recorded and the body starts (R233). -/
theorem acceptHeader_cases (s : State) (kind : SubKind) (order : BitVec 6) (w : Nat) :
    (sampleWidth s.hdr.ss s.hdr.ca s.seq.ch w < 1 ∧ s.acceptHeader kind order w = s.raise .badWastedBits 0) ∨
      (1 ≤ sampleWidth s.hdr.ss s.hdr.ca s.seq.ch w ∧
        s.acceptHeader kind order w =
          State.startBody
            { s with subs := s.subs.setIfInBounds s.seq.ch { kind := kind, order := order, wasted := BitVec.ofNat 6 w } }) := by
  unfold State.acceptHeader
  by_cases h : sampleWidth s.hdr.ss s.hdr.ca s.seq.ch w < 1
  · exact Or.inl ⟨h, if_pos h⟩
  · exact Or.inr ⟨by omega, if_neg h⟩

/-- A body starts with an element of the subframe, or, for a VERBATIM subframe of no samples, it is over. -/
theorem startBody_cases (s : State) :
    (∃ p, s.startBody = State.gotoIdx { s with seq := { s.seq with x := [] } } p 0) ∨
      (s.hdr.bs = 0 ∧ s.startBody = State.finishSubframe { s with seq := { s.seq with x := [] } }) := by
  unfold State.startBody
  split
  · exact Or.inl ⟨_, rfl⟩
  · by_cases h : s.hdr.bs = 0
    · exact Or.inr ⟨h, if_pos h⟩
    · exact Or.inl ⟨.smp, if_neg h⟩
  · exact Or.inl ⟨_, rfl⟩
  · exact Or.inl ⟨_, rfl⟩

/-! ### The end of a residual section -/

/-- After a partition: the next one, or, after the last, the reconstruction (R262). -/
theorem nextPartition_cases (s : State) :
    (s.seq.part + 1 < 2 ^ s.seq.porder.toNat ∧
        s.nextPartition = { s with seq := { s.seq with part := s.seq.part + 1, pos := .part } }) ∨
      (2 ^ s.seq.porder.toNat ≤ s.seq.part + 1 ∧ s.nextPartition = s.reconstruct) := by
  unfold State.nextPartition
  by_cases h : s.seq.part + 1 < 2 ^ s.seq.porder.toNat
  · exact Or.inl ⟨h, if_pos h⟩
  · exact Or.inr ⟨by omega, if_neg h⟩

/-- A reconstruction is the finish of the subframe over some files and some vector `X` (R238, R244). -/
theorem reconstruct_eq_finish (s : State) :
    ∃ (f : Files) (x : List Word), s.reconstruct = State.finishSubframe { s with files := f, seq := { s.seq with x := x } } := by
  unfold State.reconstruct
  split
  · exact ⟨_, _, rfl⟩
  · exact ⟨s.files, _, rfl⟩
  · exact ⟨s.files, s.seq.x, rfl⟩
  · exact ⟨s.files, s.seq.x, rfl⟩

theorem reconstruct_fixed {s : State} (h : s.cur.kind = .fixed) :
    s.reconstruct =
      State.finishSubframe
        { s with
          files := { s.files with c := setFirst s.files.c (fixedCoef s.order), shift := 0 }
          seq := { s.seq with x := s.predicted (setFirst s.files.c (fixedCoef s.order)) 0 } } := by
  unfold State.reconstruct
  rw [h]

theorem reconstruct_lpc {s : State} (h : s.cur.kind = .lpc) :
    s.reconstruct =
      State.finishSubframe { s with seq := { s.seq with x := s.predicted s.files.c s.files.shift } } := by
  unfold State.reconstruct
  rw [h]

/-! ### The sample memory -/

/-- The finish keeps the canonical form. -/
theorem memWf_finishSubframe {s : State} (h : memWf s.d = true) : memWf s.finishSubframe.d = true :=
  memWf_memWriteBlock h _ _

/-- All a finish does to the sample memory (R250): the elements of the current channel up to the block size, as far as
samples are there, become the shifted samples; every other element stays. -/
theorem memRead_finishSubframe (s : State) (a : Nat) :
    memRead s.finishSubframe.d a =
      if sampleAddr s.seq.ch 0 ≤ a ∧ a < sampleAddr s.seq.ch 0 + min s.hdr.bs.toNat s.seq.x.length then
        (s.seq.x[a - sampleAddr s.seq.ch 0]?).map fun x : Word => x <<< s.cur.wasted.toNat
      else memRead s.d a := by
  rw [State.finishSubframe_d, memRead_memWriteBlock]
  simp only [List.length_map, List.length_take]
  split
  · next h =>
    rw [List.getElem?_map, List.getElem?_take_of_lt (by omega)]
  · rfl

/-- The addresses of two channels' elements are apart. -/
theorem sampleAddr_inj {c c' i i' : Nat} (hi : i < Config.maxBlock) (hi' : i' < Config.maxBlock) :
    sampleAddr c i = sampleAddr c' i' ↔ c = c' ∧ i = i' := by
  unfold sampleAddr Config.maxBlock at *
  omega

/-! ### The predictor -/

@[simp] theorem length_predictFrom (coefs : List Word) (shift : Nat) (recent rs : List Word) :
    (predictFrom coefs shift recent rs).length = rs.length := by
  induction rs generalizing recent with
  | nil => rfl
  | cons r rs ih => simp [predictFrom, ih]

/-- A reconstruction has a sample for each warm-up and each residual (R280). -/
@[simp] theorem length_predict (coefs warmup residuals : List Word) (shift : Nat) :
    (predict coefs warmup residuals shift).length = warmup.length + residuals.length := by
  simp [predict]

/-- The warm-up samples come first (R281). -/
theorem getElem?_predict_warmup {coefs warmup residuals : List Word} {shift i : Nat} (h : i < warmup.length) :
    (predict coefs warmup residuals shift)[i]? = warmup[i]? := by
  rw [predict, List.getElem?_append_left h]

/-- The samples already reconstructed are the warm-up of the rest. -/
theorem predict_cons (coefs warmup : List Word) (r : Word) (rs : List Word) (shift : Nat) :
    predict coefs warmup (r :: rs) shift =
      predict coefs (warmup ++ [r + (weightedSum 0 coefs warmup.reverse).sshiftRight shift]) rs shift := by
  simp [predict, predictFrom]

theorem weightedSum_acc (acc : Word) (cs xs : List Word) : weightedSum acc cs xs = acc + weightedSum 0 cs xs := by
  induction cs generalizing acc xs with
  | nil => simp [weightedSum]
  | cons c cs ih =>
    cases xs with
    | nil => simp [weightedSum]
    | cons x xs =>
      rw [weightedSum, weightedSum, ih, ih (0 + c * x)]
      ring

/-! ### Every meaning answers a next state -/

/-- No instruction stops the model: a fault of the spec is a next state in FAULT (R345). -/
theorem exec_next (i : Instr) (s : State) : ∃ t, exec i s = .next t := by
  cases i <;> exact ⟨_, rfl⟩

end Sys2Proof.Machine
end

