-- ==== Sys2Proof/Laws/PerInstr.lean ====
section
/-! SUPPORT. A law per instruction: its encoding has the length of its row of spec/opcode_table.json. -/

namespace Sys2Proof

@[simp] theorem length_bvBits {n : Nat} (v : BitVec n) : (bvBits v).length = n := by simp [bvBits]

@[simp] theorem length_sfhBits (pad : BitVec 1) (t : BitVec 6) (wflag : BitVec 1) : (sfhBits pad t wflag).length = 8 := by
  simp [sfhBits]

@[simp] theorem length_unaryBits (zeros : Nat) : (unaryBits zeros).length = zeros + 1 := by simp [unaryBits]

end Sys2Proof

namespace Sys2Proof.Laws.Encoding

/-- The bits of an instruction: its row's width, for the header codes with the tail they read (R104, R105), and for the
rows of variable length the length their format gives (R108, R110, R114, R117, R119). -/
def bitCount : Instr → Nat
  | .next => 2
  | .reset => 2
  | .frame _ _ _ _ _ => 32
  | .bsc0 => 4
  | .bsc1 => 4
  | .bsc2 => 4
  | .bsc3 => 4
  | .bsc4 => 4
  | .bsc5 => 4
  | .bsc6 _ => 12
  | .bsc7 _ => 20
  | .bsc8 => 4
  | .bsc9 => 4
  | .bsc10 => 4
  | .bsc11 => 4
  | .bsc12 => 4
  | .bsc13 => 4
  | .bsc14 => 4
  | .bsc15 => 4
  | .rc0 => 4
  | .rc1 => 4
  | .rc2 => 4
  | .rc3 => 4
  | .rc4 => 4
  | .rc5 => 4
  | .rc6 => 4
  | .rc7 => 4
  | .rc8 => 4
  | .rc9 => 4
  | .rc10 => 4
  | .rc11 => 4
  | .rc12 _ => 12
  | .rc13 _ => 20
  | .rc14 _ => 20
  | .rc15 => 4
  | .ca0 => 4
  | .ca1 => 4
  | .ca2 => 4
  | .ca3 => 4
  | .ca4 => 4
  | .ca5 => 4
  | .ca6 => 4
  | .ca7 => 4
  | .ca8 => 4
  | .ca9 => 4
  | .ca10 => 4
  | .ca11 => 4
  | .ca12 => 4
  | .ca13 => 4
  | .ca14 => 4
  | .ca15 => 4
  | .ssc0 => 3
  | .ssc1 => 3
  | .ssc2 => 3
  | .ssc3 => 3
  | .ssc4 => 3
  | .ssc5 => 3
  | .ssc6 => 3
  | .ssc7 => 3
  | .u8Lead1 _ => 8
  | .u8Lead2 _ => 8
  | .u8Lead3 _ => 8
  | .u8Lead4 _ => 8
  | .u8Lead5 _ => 8
  | .u8Lead6 _ => 8
  | .u8Lead7 => 8
  | .u8BadLead1 _ => 8
  | .u8BadLead8 => 8
  | .u8Cont _ => 8
  | .u8BadCont0 _ => 8
  | .u8BadCont3 _ => 8
  | .crc8 _ => 8
  | .subConstant _ _ => 8
  | .subVerbatim _ _ => 8
  | .subFixed0 _ _ => 8
  | .subFixed1 _ _ => 8
  | .subFixed2 _ _ => 8
  | .subFixed3 _ _ => 8
  | .subFixed4 _ _ => 8
  | .subLpc _ _ _ => 8
  | .subRsvd00001x _ _ => 7
  | .subRsvd0001xx _ _ => 7
  | .subRsvd001101 _ => 7
  | .subRsvd00111x _ _ => 7
  | .subRsvd01xxxx _ _ => 7
  | .subBadPad _ => 7
  | .wsuffix zeros => zeros + 1
  | .smp width _ => width
  | .lph _ _ => 9
  | .lphBadPrec => 4
  | .lphBadShift _ _ => 9
  | .coef width _ => width
  | .resRice4 _ => 6
  | .resRice5 _ => 6
  | .resBadMethod _ => 2
  | .part4 _ => 4
  | .part4Esc => 4
  | .part5 _ => 5
  | .part5Esc => 5
  | .rice m zeros _ => zeros + 1 + m
  | .padbits count _ => count
  | .foot _ => 16

/-- The encoding of `i` is as long as its row says. -/
def Statement (i : Instr) : Prop := (encode i).length = bitCount i

theorem next : Statement .next := rfl

theorem reset : Statement .reset := rfl

theorem frame : ∀ var bsc rc ca ssc, Statement (.frame var bsc rc ca ssc) := fun _ _ _ _ _ => rfl

theorem bsc0 : Statement .bsc0 := rfl

theorem bsc1 : Statement .bsc1 := rfl

theorem bsc2 : Statement .bsc2 := rfl

theorem bsc3 : Statement .bsc3 := rfl

theorem bsc4 : Statement .bsc4 := rfl

theorem bsc5 : Statement .bsc5 := rfl

theorem bsc6 : ∀ tail, Statement (.bsc6 tail) := fun _ => rfl

theorem bsc7 : ∀ tail, Statement (.bsc7 tail) := fun _ => rfl

theorem bsc8 : Statement .bsc8 := rfl

theorem bsc9 : Statement .bsc9 := rfl

theorem bsc10 : Statement .bsc10 := rfl

theorem bsc11 : Statement .bsc11 := rfl

theorem bsc12 : Statement .bsc12 := rfl

theorem bsc13 : Statement .bsc13 := rfl

theorem bsc14 : Statement .bsc14 := rfl

theorem bsc15 : Statement .bsc15 := rfl

theorem rc0 : Statement .rc0 := rfl

theorem rc1 : Statement .rc1 := rfl

theorem rc2 : Statement .rc2 := rfl

theorem rc3 : Statement .rc3 := rfl

theorem rc4 : Statement .rc4 := rfl

theorem rc5 : Statement .rc5 := rfl

theorem rc6 : Statement .rc6 := rfl

theorem rc7 : Statement .rc7 := rfl

theorem rc8 : Statement .rc8 := rfl

theorem rc9 : Statement .rc9 := rfl

theorem rc10 : Statement .rc10 := rfl

theorem rc11 : Statement .rc11 := rfl

theorem rc12 : ∀ tail, Statement (.rc12 tail) := fun _ => rfl

theorem rc13 : ∀ tail, Statement (.rc13 tail) := fun _ => rfl

theorem rc14 : ∀ tail, Statement (.rc14 tail) := fun _ => rfl

theorem rc15 : Statement .rc15 := rfl

theorem ca0 : Statement .ca0 := rfl

theorem ca1 : Statement .ca1 := rfl

theorem ca2 : Statement .ca2 := rfl

theorem ca3 : Statement .ca3 := rfl

theorem ca4 : Statement .ca4 := rfl

theorem ca5 : Statement .ca5 := rfl

theorem ca6 : Statement .ca6 := rfl

theorem ca7 : Statement .ca7 := rfl

theorem ca8 : Statement .ca8 := rfl

theorem ca9 : Statement .ca9 := rfl

theorem ca10 : Statement .ca10 := rfl

theorem ca11 : Statement .ca11 := rfl

theorem ca12 : Statement .ca12 := rfl

theorem ca13 : Statement .ca13 := rfl

theorem ca14 : Statement .ca14 := rfl

theorem ca15 : Statement .ca15 := rfl

theorem ssc0 : Statement .ssc0 := rfl

theorem ssc1 : Statement .ssc1 := rfl

theorem ssc2 : Statement .ssc2 := rfl

theorem ssc3 : Statement .ssc3 := rfl

theorem ssc4 : Statement .ssc4 := rfl

theorem ssc5 : Statement .ssc5 := rfl

theorem ssc6 : Statement .ssc6 := rfl

theorem ssc7 : Statement .ssc7 := rfl

theorem u8Lead1 : ∀ payload, Statement (.u8Lead1 payload) := fun _ => rfl

theorem u8Lead2 : ∀ payload, Statement (.u8Lead2 payload) := fun _ => rfl

theorem u8Lead3 : ∀ payload, Statement (.u8Lead3 payload) := fun _ => rfl

theorem u8Lead4 : ∀ payload, Statement (.u8Lead4 payload) := fun _ => rfl

theorem u8Lead5 : ∀ payload, Statement (.u8Lead5 payload) := fun _ => rfl

theorem u8Lead6 : ∀ payload, Statement (.u8Lead6 payload) := fun _ => rfl

theorem u8Lead7 : Statement .u8Lead7 := rfl

theorem u8BadLead1 : ∀ ignored, Statement (.u8BadLead1 ignored) := fun _ => rfl

theorem u8BadLead8 : Statement .u8BadLead8 := rfl

theorem u8Cont : ∀ payload, Statement (.u8Cont payload) := fun _ => rfl

theorem u8BadCont0 : ∀ ignored, Statement (.u8BadCont0 ignored) := fun _ => rfl

theorem u8BadCont3 : ∀ ignored, Statement (.u8BadCont3 ignored) := fun _ => rfl

theorem crc8 : ∀ stored, Statement (.crc8 stored) := fun _ => rfl

theorem subConstant : ∀ pad wflag, Statement (.subConstant pad wflag) := fun _ _ => rfl

theorem subVerbatim : ∀ pad wflag, Statement (.subVerbatim pad wflag) := fun _ _ => rfl

theorem subFixed0 : ∀ pad wflag, Statement (.subFixed0 pad wflag) := fun _ _ => rfl

theorem subFixed1 : ∀ pad wflag, Statement (.subFixed1 pad wflag) := fun _ _ => rfl

theorem subFixed2 : ∀ pad wflag, Statement (.subFixed2 pad wflag) := fun _ _ => rfl

theorem subFixed3 : ∀ pad wflag, Statement (.subFixed3 pad wflag) := fun _ _ => rfl

theorem subFixed4 : ∀ pad wflag, Statement (.subFixed4 pad wflag) := fun _ _ => rfl

theorem subLpc : ∀ pad orderMinus1 wflag, Statement (.subLpc pad orderMinus1 wflag) := fun _ _ _ => rfl

theorem subRsvd00001x : ∀ pad tLow, Statement (.subRsvd00001x pad tLow) := fun _ _ => rfl

theorem subRsvd0001xx : ∀ pad tLow, Statement (.subRsvd0001xx pad tLow) := fun _ _ => rfl

theorem subRsvd001101 : ∀ pad, Statement (.subRsvd001101 pad) := fun _ => rfl

theorem subRsvd00111x : ∀ pad tLow, Statement (.subRsvd00111x pad tLow) := fun _ _ => rfl

theorem subRsvd01xxxx : ∀ pad tLow, Statement (.subRsvd01xxxx pad tLow) := fun _ _ => rfl

theorem subBadPad : ∀ t, Statement (.subBadPad t) := fun _ => rfl

theorem wsuffix : ∀ zeros, Statement (.wsuffix zeros) := fun _ => length_unaryBits _

theorem smp : ∀ width field, Statement (.smp width field) := fun _ _ => Machine.length_msbBits _ _

theorem lph : ∀ prec shift, Statement (.lph prec shift) := fun _ _ => rfl

theorem lphBadPrec : Statement .lphBadPrec := rfl

theorem lphBadShift : ∀ prec shiftLow, Statement (.lphBadShift prec shiftLow) := fun _ _ => rfl

theorem coef : ∀ width field, Statement (.coef width field) := fun _ _ => Machine.length_msbBits _ _

theorem resRice4 : ∀ porder, Statement (.resRice4 porder) := fun _ => rfl

theorem resRice5 : ∀ porder, Statement (.resRice5 porder) := fun _ => rfl

theorem resBadMethod : ∀ methodLow, Statement (.resBadMethod methodLow) := fun _ => rfl

theorem part4 : ∀ m, Statement (.part4 m) := fun _ => rfl

theorem part4Esc : Statement .part4Esc := rfl

theorem part5 : ∀ m, Statement (.part5 m) := fun _ => rfl

theorem part5Esc : Statement .part5Esc := rfl

theorem rice : ∀ m zeros remainder, Statement (.rice m zeros remainder) := by
  intros; simp [Statement, encode, bitCount]

theorem padbits : ∀ count padding, Statement (.padbits count padding) := fun _ _ => Machine.length_msbBits _ _

theorem foot : ∀ crc16, Statement (.foot crc16) := fun _ => rfl

end Sys2Proof.Laws.Encoding
end

