-- ==== Sys2Proof/Laws/Pull.lean ====
section
/-! SUPPORT. What every read, decode and fetch does to the datapath: it pulls some bytes, one after another, and nothing
else happens to the source, the position and the CRC units (R70, R71, R175). -/

namespace Sys2Proof.Machine

theorem Pulled_refl (r : Stream) : Pulled [] r r := by
  simp [Pulled]

theorem Pulled_trans {ps qs : List Byte} {r₁ r₂ r₃ : Stream} (h : Pulled ps r₁ r₂) (h' : Pulled qs r₂ r₃) :
    Pulled (ps ++ qs) r₁ r₃ := by
  obtain ⟨a1, a2, a3, a4, a5, a6, a7⟩ := h
  obtain ⟨b1, b2, b3, b4, b5, b6, b7⟩ := h'
  refine ⟨by rw [a1, b1, List.append_assoc], b2.trans a2, ?_, b4.trans a4, b5.trans a5, ?_, ?_⟩
  · rw [b3, a3, List.length_append, BitVec.ofNat_add, BitVec.add_assoc]
  · rw [b6, a4, a6, List.foldl_append]
    split <;> rfl
  · rw [b7, a5, a7, List.foldl_append]
    split <;> rfl

/-- A pull is one pulled byte. -/
theorem Pulled_of_pull {r r' : Stream} {b : Byte} (h : r.pull = some (b, r')) : Pulled [b] r r' := by
  obtain ⟨h1, h2, h3, -, -, h6, h7, h8, h9⟩ := pull_spec h
  exact ⟨h1, h2, h3, h6, h7, h8, h9⟩

/-- The unread bits play no part. -/
theorem Pulled_align {ps : List Byte} {r r' : Stream} (h : Pulled ps r r') : Pulled ps r r'.align := h

theorem readBit_pulled {r r' : Stream} {b : Bool} (h : r.readBit = some (b, r')) :
    ∃ ps, Pulled ps r r' ∧ (r'.brN ≤ 7 ∨ r'.brN < r.brN) := by
  unfold Stream.readBit at h
  split at h
  · next n hn =>
    cases h
    exact ⟨[], Pulled_refl r, Or.inr (by simp [hn])⟩
  · next hn =>
    split at h
    · cases h
    · next b0 r1 hp =>
      cases h
      have h1 := Pulled_of_pull hp
      exact ⟨[b0], h1, Or.inl le_rfl⟩

/-- The stream behind a read, whether it gave a value or stopped. -/
def Read.rest : Read → Stream
  | .ok _ r => r
  | .stop r => r

theorem readLoop_pulled (n v : Nat) (r : Stream) (hn : r.brN ≤ 7) :
    ∃ ps, Pulled ps r (r.readLoop n v).rest ∧ (r.readLoop n v).rest.brN ≤ 7 := by
  induction n generalizing r v with
  | zero => exact ⟨[], Pulled_refl r, hn⟩
  | succ n ih =>
    rw [Stream.readLoop]
    split
    · exact ⟨[], Pulled_refl r, hn⟩
    · next b r1 hb =>
      obtain ⟨ps, h1, h2⟩ := readBit_pulled hb
      obtain ⟨qs, h3, h4⟩ := ih (2 * v + b.toNat) r1 (by omega)
      exact ⟨ps ++ qs, Pulled_trans h1 h3, h4⟩

/-- A read pulls bytes and leaves at most 7 bits unread (R140). -/
theorem read_pulled (n : Nat) (r : Stream) (hn : r.brN ≤ 7) :
    ∃ ps, Pulled ps r (r.read n).rest ∧ (r.read n).rest.brN ≤ 7 :=
  readLoop_pulled n 0 r hn

theorem unaryLoop_pulled (fuel q : Nat) (r : Stream) (hn : r.brN ≤ 7) :
    ∃ ps, Pulled ps r (r.unaryLoop fuel q).rest ∧ (r.unaryLoop fuel q).rest.brN ≤ 7 := by
  induction fuel generalizing r q with
  | zero => exact ⟨[], Pulled_refl r, hn⟩
  | succ fuel ih =>
    rw [Stream.unaryLoop]
    split
    · exact ⟨[], Pulled_refl r, hn⟩
    · next r1 hb =>
      obtain ⟨ps, h1, h2⟩ := readBit_pulled hb
      exact ⟨ps, h1, by simp only [Read.rest]; omega⟩
    · next r1 hb =>
      obtain ⟨ps, h1, h2⟩ := readBit_pulled hb
      obtain ⟨qs, h3, h4⟩ := ih (q + 1) r1 (by omega)
      exact ⟨ps ++ qs, Pulled_trans h1 h3, h4⟩

theorem readUnary_pulled (r : Stream) (hn : r.brN ≤ 7) :
    ∃ ps, Pulled ps r r.readUnary.rest ∧ r.readUnary.rest.brN ≤ 7 :=
  unaryLoop_pulled _ 0 r hn

end Sys2Proof.Machine

namespace Sys2Proof

open Sys2Proof.Machine

/-- The stream behind a decoded element; a refused width has consumed nothing, so it stands at `r`. -/
def Decoded.rest (r : Stream) : Decoded → Stream
  | .instr _ r' => r'
  | .illegal _ r' => r'
  | .stopped r' => r'
  | .noCommand r' => r'
  | .badWidth _ => r

/-- The stream behind `d`, read from `r`, is `r` after some pulls, with at most 7 bits unread. -/
def Decoded.Consumes (r : Stream) (d : Decoded) : Prop :=
  ∃ r', r'.brN ≤ 7 ∧ (∃ ps, Pulled ps r r') ∧ ((∃ n, d = .badWidth n) ∨ d.rest r' = r')

theorem Decoded.consumes_of_rest {r : Stream} {d : Decoded} (h : d.rest r = r) (hn : r.brN ≤ 7) : d.Consumes r :=
  ⟨r, hn, ⟨[], Pulled_refl r⟩, Or.inr h⟩

theorem Decoded.Consumes_trans {r r₁ : Stream} {d : Decoded} {ps : List Byte} (h : Pulled ps r r₁)
    (h' : d.Consumes r₁) : d.Consumes r := by
  obtain ⟨r', hn, ⟨qs, hq⟩, hd⟩ := h'
  exact ⟨r', hn, ⟨ps ++ qs, Pulled_trans h hq⟩, hd⟩

theorem field_consumes (n : Nat) (r : Stream) (k : Nat → Stream → Decoded) (hn : r.brN ≤ 7)
    (hk : ∀ v r', r'.brN ≤ 7 → (k v r').Consumes r') : (field n r k).Consumes r := by
  obtain ⟨ps, h1, h2⟩ := read_pulled n r hn
  unfold field
  cases h : r.read n with
  | ok v r' =>
    rw [h] at h1 h2
    exact Decoded.Consumes_trans h1 (hk v r' h2)
  | stop r' =>
    rw [h] at h1 h2
    exact ⟨r', h2, ⟨ps, h1⟩, Or.inr rfl⟩

theorem sizedField_consumes (n : Nat) (r : Stream) (k : Nat → Stream → Decoded) (hn : r.brN ≤ 7)
    (hk : ∀ v r', r'.brN ≤ 7 → (k v r').Consumes r') : (sizedField n r k).Consumes r := by
  unfold sizedField
  split
  · exact field_consumes n r k hn hk
  · exact ⟨r, hn, ⟨[], Pulled_refl r⟩, Or.inl ⟨n, rfl⟩⟩

theorem unaryField_consumes (r : Stream) (k : Nat → Stream → Decoded) (hn : r.brN ≤ 7)
    (hk : ∀ v r', r'.brN ≤ 7 → (k v r').Consumes r') : (unaryField r k).Consumes r := by
  obtain ⟨ps, h1, h2⟩ := readUnary_pulled r hn
  unfold unaryField
  cases h : r.readUnary with
  | ok v r' =>
    rw [h] at h1 h2
    exact Decoded.Consumes_trans h1 (hk v r' h2)
  | stop r' =>
    rw [h] at h1 h2
    exact ⟨r', h2, ⟨ps, h1⟩, Or.inr rfl⟩

theorem instr_consumes (i : Instr) (r : Stream) (hn : r.brN ≤ 7) : (Decoded.instr i r).Consumes r :=
  Decoded.consumes_of_rest rfl hn

theorem illegal_consumes (k : ErrKind) (r : Stream) (hn : r.brN ≤ 7) : (Decoded.illegal k r).Consumes r :=
  Decoded.consumes_of_rest rfl hn

theorem decodeCmd_consumes (r : Stream) (hn : r.brN ≤ 7) : (decodeCmd r).Consumes r := by
  refine field_consumes _ _ _ hn fun v r' h => ?_
  split
  · exact instr_consumes _ _ h
  · exact Decoded.consumes_of_rest rfl h

theorem decodeFh_consumes (r : Stream) (hn : r.brN ≤ 7) : (decodeFh r).Consumes r := by
  refine field_consumes _ _ _ hn fun v r' h => ?_
  split
  · exact illegal_consumes _ _ h
  refine field_consumes _ _ _ h fun v r' h => ?_
  split
  · exact illegal_consumes _ _ h
  refine field_consumes _ _ _ h fun _ r' h => field_consumes _ _ _ h fun _ r' h => field_consumes _ _ _ h fun _ r' h =>
    field_consumes _ _ _ h fun _ r' h => field_consumes _ _ _ h fun _ r' h => field_consumes _ _ _ h fun v r' h => ?_
  split
  · exact illegal_consumes _ _ h
  · exact instr_consumes _ _ h

theorem decodeCa_consumes (code : BitVec 4) (r : Stream) (hn : r.brN ≤ 7) : (decodeCa code r).Consumes r := by
  unfold decodeCa
  split <;> exact instr_consumes _ _ hn

theorem decodeSsc_consumes (code : BitVec 3) (r : Stream) (hn : r.brN ≤ 7) : (decodeSsc code r).Consumes r := by
  unfold decodeSsc
  split <;> exact instr_consumes _ _ hn

theorem decodeBsc_consumes (code : BitVec 4) (r : Stream) (hn : r.brN ≤ 7) : (decodeBsc code r).Consumes r := by
  unfold decodeBsc
  split <;> first
    | exact instr_consumes _ _ hn
    | exact field_consumes _ _ _ hn fun _ _ h => instr_consumes _ _ h

theorem decodeRc_consumes (code : BitVec 4) (r : Stream) (hn : r.brN ≤ 7) : (decodeRc code r).Consumes r := by
  unfold decodeRc
  split <;> first
    | exact instr_consumes _ _ hn
    | exact field_consumes _ _ _ hn fun _ _ h => instr_consumes _ _ h

theorem ite_consumes {c : Prop} [Decidable c] {r : Stream} {d e : Decoded} (hd : d.Consumes r) (he : e.Consumes r) :
    (if c then d else e).Consumes r := by
  by_cases h : c
  · rwa [if_pos h]
  · rwa [if_neg h]

theorem decodeType_consumes (pad : BitVec 1) (t : BitVec 6) (r : Stream) (hn : r.brN ≤ 7) :
    (decodeType pad t r).Consumes r := by
  have hf : ∀ row : BitVec 1 → Instr,
      (field 1 r fun v r1 => .instr (row (BitVec.ofNat 1 v)) r1).Consumes r :=
    fun row => field_consumes _ _ _ hn fun _ _ h => instr_consumes _ _ h
  have hi : ∀ i, (Decoded.instr i r).Consumes r := fun i => instr_consumes i r hn
  unfold decodeType
  exact ite_consumes (hf _) <| ite_consumes (hf _) <| ite_consumes (hi _) <| ite_consumes (hi _) <|
    ite_consumes (hf _) <| ite_consumes (hf _) <| ite_consumes (hf _) <| ite_consumes (hf _) <|
    ite_consumes (hf _) <| ite_consumes (hi _) <| ite_consumes (hi _) <| ite_consumes (hi _) (hf _)

theorem decodeSfh_consumes (strict : Bool) (r : Stream) (hn : r.brN ≤ 7) : (decodeSfh strict r).Consumes r := by
  refine field_consumes _ _ _ hn fun pad r' h => field_consumes _ _ _ h fun t r' h => ?_
  split
  · exact instr_consumes _ _ h
  · exact decodeType_consumes _ _ _ h

theorem decodeLph_consumes (r : Stream) (hn : r.brN ≤ 7) : (decodeLph r).Consumes r := by
  refine field_consumes _ _ _ hn fun prec r' h => ?_
  split
  · exact instr_consumes _ _ h
  refine field_consumes _ _ _ h fun s r' h => ?_
  split <;> exact instr_consumes _ _ h

theorem decodeRes_consumes (r : Stream) (hn : r.brN ≤ 7) : (decodeRes r).Consumes r := by
  refine field_consumes _ _ _ hn fun m r' h => ?_
  split
  · exact instr_consumes _ _ h
  refine field_consumes _ _ _ h fun p r' h => ?_
  split <;> exact instr_consumes _ _ h

theorem decodeRice_consumes (m : Nat) (r : Stream) (hn : r.brN ≤ 7) : (decodeRice m r).Consumes r := by
  refine unaryField_consumes _ _ hn fun q r' h => ?_
  split
  · exact instr_consumes _ _ h
  · exact sizedField_consumes _ _ _ h fun _ _ h => instr_consumes _ _ h

theorem decodeFt_consumes (r : Stream) (hn : r.brN ≤ 7) : (decodeFt r).Consumes r := by
  unfold decodeFt
  split
  · exact Decoded.consumes_of_rest rfl hn
  · next b0 r1 h1 =>
    have hr1 : r1.brN = r.brN := (pull_spec h1).2.2.2.2.1
    refine Decoded.Consumes_trans (Pulled_of_pull h1) ?_
    split
    · exact Decoded.consumes_of_rest rfl (by omega)
    · next b1 r2 h2 =>
      have hr2 : r2.brN = r1.brN := (pull_spec h2).2.2.2.2.1
      exact Decoded.Consumes_trans (Pulled_of_pull h2) (instr_consumes _ _ (by omega))

/-- Decoding any element pulls bytes and leaves at most 7 bits unread; nothing else of the datapath changes. -/
theorem decode_consumes (strict : Bool) (f : Format) (r : Stream) (hn : r.brN ≤ 7) :
    (decode strict f r).Consumes r := by
  cases f with
  | cmd => exact decodeCmd_consumes r hn
  | fh => exact decodeFh_consumes r hn
  | ca => exact field_consumes _ _ _ hn fun _ _ h => decodeCa_consumes _ _ h
  | ssc => exact field_consumes _ _ _ hn fun _ _ h => decodeSsc_consumes _ _ h
  | bsc => exact field_consumes _ _ _ hn fun _ _ h => decodeBsc_consumes _ _ h
  | rc => exact field_consumes _ _ _ hn fun _ _ h => decodeRc_consumes _ _ h
  | u8 => exact field_consumes _ _ _ hn fun _ _ h => instr_consumes _ _ h
  | u8cont => exact field_consumes _ _ _ hn fun _ _ h => instr_consumes _ _ h
  | crc8 => exact field_consumes _ _ _ hn fun _ _ h => instr_consumes _ _ h
  | sfh => exact decodeSfh_consumes strict r hn
  | wsuffix => exact unaryField_consumes _ _ hn fun _ _ h => instr_consumes _ _ h
  | smp b => exact sizedField_consumes _ _ _ hn fun _ _ h => instr_consumes _ _ h
  | lph => exact decodeLph_consumes r hn
  | coef b => exact sizedField_consumes _ _ _ hn fun _ _ h => instr_consumes _ _ h
  | res => exact decodeRes_consumes r hn
  | part4 => exact field_consumes _ _ _ hn fun _ _ h => instr_consumes _ _ h
  | part5 => exact field_consumes _ _ _ hn fun _ _ h => instr_consumes _ _ h
  | rice m => exact decodeRice_consumes m r hn
  | pad =>
    refine ⟨r.align, Nat.zero_le _, ⟨[], Pulled_refl r⟩, Or.inr rfl⟩
  | ft => exact decodeFt_consumes r hn

end Sys2Proof

namespace Sys2Proof.Machine

/-- Fetching the element at the position pulls bytes and leaves at most 7 bits unread. -/
theorem fetch_consumes (s : State) (hn : s.stream.brN ≤ 7) : s.fetch.Consumes s.stream := by
  unfold State.fetch
  dsimp only
  split <;> first
    | exact decode_consumes _ _ _ hn
    | exact decodeCa_consumes _ _ hn
    | exact decodeSsc_consumes _ _ hn
    | exact decodeBsc_consumes _ _ hn
    | exact decodeRc_consumes _ _ hn

end Sys2Proof.Machine
end

