-- ==== Sys2Proof/Laws/Step.lean ====
section
/-! SUPPORT. What a step is, by the host's next access and by `STATE`, and what a NEXT's elements add up to. -/

namespace Sys2Proof.Machine

/-! ### One step -/

theorem step_element {s : State} (hh : s.host = []) (hb : s.status = .busy) : step s = stepElement s := by
  rw [step, stepMachine, hh]
  exact if_pos hb

theorem step_still {s : State} (hh : s.host = []) (hb : s.status ≠ .busy) : step s = .next s := by
  rw [step, stepMachine, hh]
  exact if_neg hb

theorem step_read {s : State} {n : Nat} {rest : List HostEvent} (hh : s.host = .read n :: rest) :
    step s = .next (State.hostRead { s with host := rest } n) := by
  rw [step, stepMachine, hh]

theorem step_resetLine {s : State} {rest : List HostEvent} (hh : s.host = .resetLine :: rest) :
    step s = .next (State.hardReset { s with host := rest }) := by
  rw [step, stepMachine, hh]

theorem step_write {s : State} {n : Nat} {v : Word} {rest : List HostEvent} (hh : s.host = .write n v :: rest) :
    step s = stepWrite n v { s with host := rest } := by
  rw [step, stepMachine, hh]

/-! ### The elements of a NEXT -/

@[simp] theorem andThen_next (t : State) (f : State → Host.Outcome State Fault Refusal) : andThen (.next t) f = f t := rfl

/-- Nothing is left to run once `STATE` is not BUSY. -/
theorem runFrame_of_not_busy {s : State} (h : s.status ≠ .busy) (fuel : Nat) : runFrame fuel s = .next s := by
  cases fuel with
  | zero => rfl
  | succ n => exact if_neg h

theorem runFrame_busy {s : State} (h : s.status = .busy) (fuel : Nat) :
    runFrame (fuel + 1) s = andThen (stepElement s) (runFrame fuel) := if_pos h

/-- All a run of elements can answer with a next state: the state after some elements, and either `STATE` is no longer
BUSY or the fuel is used up. -/
theorem elementsTo_of_runFrame {fuel : Nat} {s t : State} (h : runFrame fuel s = .next t) :
    ∃ k ≤ fuel, elementsTo k s t ∧ (t.status ≠ .busy ∨ k = fuel) := by
  induction fuel generalizing s with
  | zero => cases h; exact ⟨0, le_rfl, rfl, .inr rfl⟩
  | succ n ih =>
    by_cases hb : s.status = .busy
    · rw [runFrame_busy hb] at h
      cases hs : stepElement s with
      | next u =>
        rw [hs] at h
        obtain ⟨k, hk, he, ht⟩ := ih h
        exact ⟨k + 1, Nat.succ_le_succ hk, ⟨hb, u, hs, he⟩, ht.imp_right (congrArg (· + 1))⟩
      | fault r => rw [hs] at h; cases h
      | refused r => rw [hs] at h; cases h
    · rw [runFrame_of_not_busy hb] at h
      cases h
      exact ⟨0, Nat.zero_le _, rfl, .inl hb⟩

/-- Elements that end a NEXT within the fuel are the run. -/
theorem runFrame_of_elementsTo {k fuel : Nat} {s t : State} (hk : k ≤ fuel) (h : elementsTo k s t)
    (ht : t.status ≠ .busy) : runFrame fuel s = .next t := by
  induction k generalizing s fuel with
  | zero => cases h; exact runFrame_of_not_busy ht fuel
  | succ k ih =>
    obtain ⟨hb, u, hs, he⟩ := h
    obtain ⟨n, rfl⟩ : ∃ n, fuel = n + 1 := ⟨fuel - 1, by omega⟩
    rw [runFrame_busy hb, hs]
    exact ih (by omega) he

/-- An accepted NEXT: its elements run from the frame header on (R295). -/
theorem step_next {s : State} {v : Word} {rest : List HostEvent} (hh : s.host = .write 2 v :: rest)
    (hv : v.extractLsb' 0 2 = 1#2) (hs : s.status.acceptsNext = true) :
    step s =
      runFrame (s.elementBound)
        { s with host := rest, err := .none, errInner := 0, status := .busy, seq := { s.seq with pos := .frame } } := by
  have hc : commandOfWrite 2 v = some .next := by
    have : v.truncate 2 = 1#2 := by rw [← hv]; ext i; simp
    rw [commandOfWrite, if_pos rfl, this]
    rfl
  have hb : s.status ≠ .busy := fun h => by rw [h] at hs; cases hs
  rw [step_write hh, stepWrite, hc]
  show (if s.status = .busy then _ else _) = _
  rw [if_neg hb]
  show andThen (execNext _) _ = _
  rw [execNext]
  show andThen (.next (if s.status.acceptsNext then _ else _)) _ = _
  rw [if_pos hs]
  rfl

end Sys2Proof.Machine
end

