-- ==== Sys2Proof/Tests/Slice0.lean ====
section
/-! SUPPORT. Tests of the model on fixed values, each expected value from the spec, and a witness for every statement with
hypotheses. -/

namespace Sys2Proof.Tests

open Sys2Proof.Machine Sys2Proof.Claims

/-! ### Well-formed terms: each check refuses an ill-formed one -/

theorem test_wf_sample_widths :
    (Instr.smp 1 1).wellFormed = true ∧ (Instr.smp 64 (-1)).wellFormed = true ∧ (Instr.smp 0 0).wellFormed = false ∧
      (Instr.smp 65 0).wellFormed = false ∧ (Instr.smp 4 16).wellFormed = false := by decide

theorem test_wf_coefficient_widths :
    (Instr.coef 15 0x7FFF).wellFormed = true ∧ (Instr.coef 16 0).wellFormed = false ∧
      (Instr.coef 3 8).wellFormed = false ∧ (Instr.coef 0 0).wellFormed = false := by decide

theorem test_wf_lpc_precision :
    (Instr.lph 14 0).wellFormed = true ∧ (Instr.lph 15 0).wellFormed = false ∧
      (Instr.lphBadShift 15 0).wellFormed = false := by decide

theorem test_wf_rice_parameters :
    (Instr.part4 14).wellFormed = true ∧ (Instr.part4 15).wellFormed = false ∧ (Instr.part5 30).wellFormed = true ∧
      (Instr.part5 31).wellFormed = false := by decide

theorem test_wf_rice :
    (Instr.rice 30 7 0x3FFFFFFF).wellFormed = true ∧ (Instr.rice 31 0 0).wellFormed = false ∧
      (Instr.rice 2 0 4).wellFormed = false ∧ (Instr.rice 0 0 1).wellFormed = false := by decide

theorem test_wf_padding :
    (Instr.padbits 7 127).wellFormed = true ∧ (Instr.padbits 8 0).wellFormed = false ∧
      (Instr.padbits 3 8).wellFormed = false := by decide

/-- R223: the padding bit of 1 is a row of its own exactly under `P_PAD_STRICT`. -/
theorem test_wf_padding_bit :
    (Instr.subConstant 1 0).padOk true = false ∧ (Instr.subConstant 1 0).padOk false = true ∧
      (Instr.subRsvd01xxxx 1 0).padOk true = false ∧ (Instr.subBadPad 0).padOk true = true ∧
      (Instr.subBadPad 0).padOk false = false := by decide

/-! ### Decoding: every constructor from bits written out from file 30 -/

/-- The instruction read from the `width` bits of `w` in format `f`. -/
def reads (strict : Bool) (f : Format) (width w : Nat) : Option Instr :=
  match decode strict f (wordStream width w blankStream) with
  | .instr i _ => some i
  | _ => none

/-- The bits still unread after that: 16 zero bytes stand behind the word. -/
def leaves (strict : Bool) (f : Format) (width w : Nat) : Option Nat :=
  match decode strict f (wordStream width w blankStream) with
  | .instr _ r => some (r.bitsLeft - 128)
  | .illegal _ r => some (r.bitsLeft - 128)
  | _ => none

/-- R125, R28. -/
theorem test_decode_commands :
    commandOfWrite 2 0b01 = some .next ∧ commandOfWrite 2 0b10 = some .reset ∧ commandOfWrite 2 0b00 = none ∧
      commandOfWrite 2 0b11 = none ∧ commandOfWrite 1 0b01 = none ∧ reads true .cmd 2 0b01 = some .next ∧
      reads true .cmd 2 0b10 = some .reset := by decide

/-- R101, R203: bytes FF F9 6C 88. -/
theorem test_decode_frame :
    reads true .fh 32 0b11111111111110_0_1_0110_1100_1000_100_0 = some (.frame 1 6 12 8 4) ∧
      reads true .fh 32 0b11111111111110_0_0_0001_0000_0111_010_0 = some (.frame 0 1 0 7 2) := by decide

/-- R104: the sixteen block-size codes, 6 and 7 with their tail. -/
theorem test_decode_block_sizes :
    (List.range 6).map (fun n => reads true .bsc 4 n) =
        [some .bsc0, some .bsc1, some .bsc2, some .bsc3, some .bsc4, some .bsc5] ∧
      reads true .bsc 12 0b0110_00000001 = some (.bsc6 1) ∧
      reads true .bsc 20 0b0111_0000000100000000 = some (.bsc7 256) ∧
      (List.range 8).map (fun n => reads true .bsc 4 (8 + n)) =
        [some .bsc8, some .bsc9, some .bsc10, some .bsc11, some .bsc12, some .bsc13, some .bsc14, some .bsc15] := by
  decide

/-- R105: the sixteen sample-rate codes, 12 to 14 with their tail. -/
theorem test_decode_sample_rates :
    (List.range 12).map (fun n => reads true .rc 4 n) =
        [some .rc0, some .rc1, some .rc2, some .rc3, some .rc4, some .rc5, some .rc6, some .rc7, some .rc8, some .rc9,
          some .rc10, some .rc11] ∧
      reads true .rc 12 0b1100_00110000 = some (.rc12 48) ∧
      reads true .rc 20 0b1101_1010110001000100 = some (.rc13 44100) ∧
      reads true .rc 20 0b1110_0001000100111010 = some (.rc14 4410) ∧ reads true .rc 4 0b1111 = some .rc15 := by decide

/-- R106: the sixteen channel assignments. -/
theorem test_decode_channel_assignments :
    (List.range 16).map (fun n => reads true .ca 4 n) =
      [some .ca0, some .ca1, some .ca2, some .ca3, some .ca4, some .ca5, some .ca6, some .ca7, some .ca8, some .ca9,
        some .ca10, some .ca11, some .ca12, some .ca13, some .ca14, some .ca15] := by decide

/-- R107: the eight sample-size codes. -/
theorem test_decode_sample_sizes :
    (List.range 8).map (fun n => reads true .ssc 3 n) =
      [some .ssc0, some .ssc1, some .ssc2, some .ssc3, some .ssc4, some .ssc5, some .ssc6, some .ssc7] := by decide

/-- R102: lead bytes by their leading 1 bits, and the three patterns of a continuation byte. -/
theorem test_decode_number_bytes :
    reads true .u8 8 0b0_1000001 = some (.u8Lead1 0x41) ∧ reads true .u8 8 0b110_00010 = some (.u8Lead2 2) ∧
      reads true .u8 8 0b1110_0010 = some (.u8Lead3 2) ∧ reads true .u8 8 0b11110_101 = some (.u8Lead4 5) ∧
      reads true .u8 8 0b111110_11 = some (.u8Lead5 3) ∧ reads true .u8 8 0b1111110_1 = some (.u8Lead6 1) ∧
      reads true .u8 8 0b11111110 = some .u8Lead7 ∧ reads true .u8 8 0b10_000001 = some (.u8BadLead1 1) ∧
      reads true .u8 8 0b11111111 = some .u8BadLead8 ∧ reads true .u8cont 8 0b10_101100 = some (.u8Cont 0x2C) ∧
      reads true .u8cont 8 0b0_0100010 = some (.u8BadCont0 0x22) ∧
      reads true .u8cont 8 0b11_111111 = some (.u8BadCont3 0x3F) := by decide

/-- R108, R109: the eight rows with a kind. -/
theorem test_decode_subframe_headers :
    reads true .sfh 8 0b0_000000_0 = some (.subConstant 0 0) ∧ reads true .sfh 8 0b0_000001_1 = some (.subVerbatim 0 1) ∧
      reads true .sfh 8 0b0_001000_0 = some (.subFixed0 0 0) ∧ reads true .sfh 8 0b0_001001_0 = some (.subFixed1 0 0) ∧
      reads true .sfh 8 0b0_001010_1 = some (.subFixed2 0 1) ∧ reads true .sfh 8 0b0_001011_0 = some (.subFixed3 0 0) ∧
      reads true .sfh 8 0b0_001100_0 = some (.subFixed4 0 0) ∧ reads true .sfh 8 0b0_100001_1 = some (.subLpc 0 1 1) ∧
      reads false .sfh 8 0b1_111111_0 = some (.subLpc 1 31 0) := by decide

/-- R109, R223: the reserved rows and the padding bit take 7 bits: of 8 bits one stays unread. -/
theorem test_decode_subframe_faults :
    reads true .sfh 7 0b0_000011 = some (.subRsvd00001x 0 1) ∧ reads true .sfh 7 0b0_000110 = some (.subRsvd0001xx 0 2) ∧
      reads true .sfh 7 0b0_001101 = some (.subRsvd001101 0) ∧ reads true .sfh 7 0b0_001111 = some (.subRsvd00111x 0 1) ∧
      reads true .sfh 7 0b0_011010 = some (.subRsvd01xxxx 0 10) ∧ reads true .sfh 7 0b1_000001 = some (.subBadPad 1) ∧
      leaves true .sfh 8 0b0_001101_0 = some 1 ∧ leaves true .sfh 8 0b1_000000_0 = some 1 := by decide

/-- R108, R110, R199, R119, R299. -/
theorem test_decode_plain_fields :
    reads true .crc8 8 0x6C = some (.crc8 0x6C) ∧ reads true .wsuffix 1 0b1 = some (.wsuffix 0) ∧
      reads true .wsuffix 4 0b0001 = some (.wsuffix 3) ∧ reads true (.smp 14) 14 0b01100011111101 = some (.smp 14 6397) ∧
      reads true .pad 5 0b10110 = some (.padbits 5 0b10110) ∧ reads true .pad 0 0 = some (.padbits 0 0) ∧
      reads true .ft 16 0x50F2 = some (.foot 0x50F2) := by decide

/-- R114, R245, R246: the LPC header; precision 15 takes 4 bits of the 9. -/
theorem test_decode_lpc_header :
    reads true .lph 9 0b0011_01111 = some (.lph 3 15) ∧ reads true .lph 9 0b1111_00000 = some .lphBadPrec ∧
      leaves true .lph 9 0b1111_00000 = some 5 ∧ reads true .lph 9 0b0011_11111 = some (.lphBadShift 3 15) ∧
      reads true (.coef 4) 4 0b1110 = some (.coef 4 14) := by decide

/-- R115, R261: the residual header; a bad method takes 2 bits of the 6. -/
theorem test_decode_residual_header :
    reads true .res 6 0b00_0001 = some (.resRice4 1) ∧ reads true .res 6 0b01_0010 = some (.resRice5 2) ∧
      reads true .res 6 0b11_0000 = some (.resBadMethod 1) ∧ leaves true .res 6 0b10_0000 = some 4 := by decide

/-- R116: 15 is the escape with 4 bits and an ordinary parameter with 5 (R264). -/
theorem test_decode_partition_headers :
    reads true .part4 4 0b1110 = some (.part4 14) ∧ reads true .part4 4 0b1111 = some .part4Esc ∧
      reads true .part5 5 0b01111 = some (.part5 15) ∧ reads true .part5 5 0b11111 = some .part5Esc := by decide

/-- R117, R267: the worked codewords. -/
theorem test_decode_rice :
    reads true (.rice 2) 3 0b1_10 = some (.rice 2 0 2) ∧ reads true (.rice 2) 4 0b01_01 = some (.rice 2 1 1) ∧
      reads true (.rice 2) 6 0b0001_11 = some (.rice 2 3 3) ∧ reads true (.rice 0) 3 0b001 = some (.rice 0 2 0) := by
  decide

/-- R187, R188, R189: a header no row matches is rejected by name, after 14, 15 and 32 bits. -/
theorem test_decode_rejects_headers :
    (decode true .fh (wordStream 16 0x0000 blankStream) matches .illegal .badSync _) ∧ leaves true .fh 16 0x0000 = some 2 ∧
      (decode true .fh (wordStream 16 0xFFFB blankStream) matches .illegal .badReserved _) ∧
      leaves true .fh 16 0xFFFB = some 1 ∧
      (decode true .fh (wordStream 32 0xFFF96C89 blankStream) matches .illegal .badReserved _) ∧
      leaves true .fh 32 0xFFF96C89 = some 0 := by decide

/-- The flat reading of a table word, as the host asks for it (log entry 9). -/
theorem test_table_words :
    decodeTableWord 32 0xFFF80000 = some (.frame 0 0 0 0 0) ∧ decodeTableWord 8 0x40 = some (.subLpc 0 0 0) ∧
      decodeTableWord 8 0xFE = some .u8Lead7 ∧ decodeTableWord 2 1 = some .next ∧
      decodeTableWord 16 0 = some (.lph 0 0) ∧ decodeTableWord 16 0x50F2 = some (.foot 0x50F2) := by decide

/-! ### Steps and meanings -/

/-- BUSY at position `p` over the given bytes, everything else as after reset. -/
def busyAt (p : Pos) (bytes : List Byte) : State :=
  { State.reset.withStream { blankStream with bytes := bytes } with
    status := .busy
    seq := { State.reset.seq with pos := p } }

/-- The same inside a subframe of channel 0 of two, with 16 samples of `ss` bits. -/
def inSubframe (p : Pos) (ss : BitVec 6) (r : SubRecord) : State :=
  let s := busyAt p []
  { s with
    hdr := { s.hdr with bs := 16, nch := 2, ca := 1, ss := ss }, subs := s.subs.setIfInBounds 0 r,
    dp := { s.dp with tee16 := true } }

/-- `f` holds of the next state. -/
def leads (o : Host.Outcome State Fault Refusal) (f : State → Bool) : Bool :=
  match o with
  | .next t => f t
  | _ => false

theorem next_of_leads {o : Host.Outcome State Fault Refusal} {f : State → Bool} (h : leads o f = true) :
    ∃ t, o = .next t ∧ f t = true := by
  cases o with
  | next t => exact ⟨t, rfl, h⟩
  | fault r => cases h
  | refused r => cases h

/-- The fault recorded, by its codes (R340), and the position. -/
def faultIs (code : BitVec 5) (inner : BitVec 32) (t : State) : Bool :=
  t.status = .fault && errCode t.err = code && t.errInner = inner

/-- R187: bytes 00 00: BadSync, two bytes pulled, two bits unread. -/
theorem test_bad_sync :
    leads (step (busyAt .frame [0x00, 0x00])) (fun t => faultIs 5 0 t && t.stream.srcPos = 2 && t.stream.brN = 2) =
      true := by decide

/-- R188: bytes FF FB: BadReserved, two bytes pulled, one bit unread. -/
theorem test_first_reserved_bit :
    leads (step (busyAt .frame [0xFF, 0xFB])) (fun t => faultIs 6 0 t && t.stream.srcPos = 2 && t.stream.brN = 1) =
      true := by decide

/-- R348: no bytes: EOS; byte FF and then the end: UnexpectedEof. -/
theorem test_end_of_input :
    leads (step (busyAt .frame [])) (fun t => t.status = .eos && errCode t.err = 18) = true ∧
      leads (step (busyAt .frame [0xFF])) (faultIs 16 0) = true := by decide

set_option maxRecDepth 8000 in
/-- R203: bytes FF F9 6C 88: the fields of the fixed part; R175: `crc8` holds the CRC of what was pulled. -/
theorem test_fixed_part :
    leads (step (busyAt .frame [0xFF, 0xF9, 0x6C, 0x88, 0xF0])) (fun t =>
      t.seq.fix = { var := 1, bsc := 6, rc := 12, ca := 8, ssc := 4 } && t.seq.pos = .ca && t.stream.bytes = [0xF0] &&
        t.stream.crc8 = crc8Of [0xFF, 0xF9, 0x6C, 0x88]) = true := by decide

/-- R190: code 8 has two channels, code 7 eight, code 11 is a fault. -/
theorem test_channel_assignment :
    leads (exec .ca8 (busyAt .ca [])) (fun t => t.hdr.nch = 2 && t.hdr.ca = 8) = true ∧
      leads (exec .ca7 (busyAt .ca [])) (fun t => t.hdr.nch = 8) = true ∧
      leads (exec .ca11 (busyAt .ca [])) (faultIs 7 0) = true := by decide

/-- R192: code 0 takes `CFG_BPS`. -/
theorem test_sample_size :
    leads (exec .ssc0 { busyAt .ssc [] with cfgBps := 33 }) (fun t => t.hdr.ss = 33) = true ∧
      leads (exec .ssc3 (busyAt .ssc [])) (faultIs 8 0) = true := by decide

/-- R161: bytes E2 82 AC are 8364: after the lead 2, after 82 130. -/
theorem test_number :
    leads (step (busyAt .numLead [0xE2, 0x82])) (fun t => t.seq.num = 2 && t.seq.numLeft = 2 && t.seq.pos = .numCont) =
        true ∧
      leads (exec (.u8Cont 0x02) { busyAt .numCont [] with seq := { State.reset.seq with num := 2, numLeft := 2 } })
        (fun t => t.seq.num = 130 && t.seq.numLeft = 1) = true ∧
      leads (exec (.u8Cont 0x2C) { busyAt .numCont [] with seq := { State.reset.seq with num := 130, numLeft := 1 } })
        (fun t => t.hdr.num = 8364 && t.seq.pos = .bsc) = true := by decide

/-- R162, R163: 22 is no continuation, 80 no lead: BadUtf8 with that byte consumed. -/
theorem test_bad_utf8 :
    leads (step (busyAt .numCont [0x22, 0x11])) (fun t => faultIs 10 0 t && t.stream.bytes = [0x11]) = true ∧
      leads (step (busyAt .numLead [0x80, 0x11])) (fun t => faultIs 10 0 t && t.stream.bytes = [0x11]) = true := by decide

/-- R194: the largest tail gives 65536; code 0 is a fault. -/
theorem test_block_size :
    leads (exec (.bsc7 0xFFFF) (busyAt .bsc [])) (fun t => t.hdr.bs.toNat = 65536) = true ∧
      leads (exec .bsc0 (busyAt .bsc [])) (faultIs 9 0) = true := by decide

/-- R196: the largest tails give 255000 and 655350; code 15 is a fault. -/
theorem test_sample_rate :
    leads (exec (.rc12 0xFF) (busyAt .rc [])) (fun t => t.hdr.rate.toNat = 255000) = true ∧
      leads (exec (.rc14 0xFFFF) (busyAt .rc [])) (fun t => t.hdr.rate.toNat = 655350) = true ∧
      leads (exec .rc15 (busyAt .rc [])) (faultIs 4 0) = true := by decide

set_option maxRecDepth 8000 in
/-- R199: CRC8(FF F9 19 22 00) is 80: stored 00 is BadChecksum with 8, stored 80 goes on. -/
theorem test_header_checksum :
    crc8Of [0xFF, 0xF9, 0x19, 0x22, 0x00] = 0x80 ∧
      leads (exec (.crc8 0x00) ((busyAt .crc8 []).withStream { blankStream with crc8 := 0x80 }))
        (fun t => faultIs 11 8 t && t.hdr.crc8 = 0) = true ∧
      leads (exec (.crc8 0x80) ((inSubframe .crc8 16 { kind := .constant, order := 0, wasted := 0 }).withStream
        { blankStream with crc8 := 0x80 })) (fun t => t.seq.pos = .subHdr && t.seq.ch = 0) = true := by decide

/-- R223: byte 80: strict BadSubframeType with one bit unread, lenient CONSTANT without wasted bits. -/
theorem test_padding_bit :
    let s := (inSubframe .subHdr 16 { kind := .lpc, order := 1, wasted := 1 }).withStream
      { blankStream with bytes := [0x80] }
    leads (step s) (fun t => faultIs 12 0 t && t.stream.brN = 1) = true ∧
      leads (step { s with params := { padStrict := false, crc16Check := true } }) (fun t =>
        t.sub 0 = { kind := .constant, order := 0, wasted := 0 } && t.seq.pos = .smp) = true := by decide

/-- R226, R232: with 8-bit samples 7 wasted bits leave one, 8 are BadWastedBits. -/
theorem test_wasted_bits :
    let s := { inSubframe .wsuffix 8 { kind := .constant, order := 0, wasted := 0 } with
      seq := { State.reset.seq with pos := .wsuffix, kind := .fixed, order := 2 } }
    leads (exec (.wsuffix 6) s) (fun t => t.sub 0 = { kind := .fixed, order := 2, wasted := 7 } && t.width = 1) = true ∧
      leads (exec (.wsuffix 7) s) (faultIs 24 0) = true := by decide

/-- R230: the side channel is one bit wider. -/
theorem test_side_channel :
    sampleWidth 16 8 1 0 = 17 ∧ sampleWidth 16 8 0 0 = 16 ∧ sampleWidth 16 9 0 0 = 17 ∧ sampleWidth 16 10 1 3 = 14 := by
  decide

/-- R236: field FD of 8 bits with a block of 4 gives -3 four times, and nothing at the fifth place. -/
theorem test_constant :
    let s := inSubframe .smp 8 { kind := .constant, order := 0, wasted := 0 }
    leads (exec (.smp 8 0xFD) { s with hdr := { s.hdr with bs := 4 } }) (fun t =>
      (List.range 5).map (fun i => memRead t.d (sampleAddr 0 i)) = [some (-3), some (-3), some (-3), some (-3), none] &&
        t.seq.ch = 1 && t.seq.pos = .subHdr) = true := by decide

/-- R237: fields of 14 bits with two wasted bits: 25588 and -4. -/
theorem test_verbatim :
    let s := inSubframe .smp 16 { kind := .verbatim, order := 0, wasted := 2 }
    leads (exec (.smp 14 0b11111111111111)
      { s with hdr := { s.hdr with bs := 2 }, seq := { s.seq with idx := 1, x := [6397] } })
      (fun t => memRead t.d (sampleAddr 0 0) = some 25588 && memRead t.d (sampleAddr 0 1) = some (-4)) = true := by decide

/-- R144: the worked fields. -/
theorem test_signed_fields :
    sext 8 0xFD = -3 ∧ sext 5 0b10000 = -16 ∧ sext 14 0b01100011111101 = 6397 ∧ sext 1 1 = -1 ∧ sext 64 (-7) = -7 := by
  decide

/-- R246: shift 11111 is BadLpcShift, 01111 is 15; R245: precision 15. -/
theorem test_lpc_header :
    let s := inSubframe .lph 16 { kind := .lpc, order := 2, wasted := 0 }
    leads (exec (.lphBadShift 3 0xF) s) (faultIs 25 0) = true ∧
      leads (exec (.lph 3 15) s) (fun t => t.files.shift = 15 && t.seq.pos = .coef) = true ∧
      leads (exec .lphBadPrec s) (faultIs 13 0) = true := by decide

/-- R247: the first field is `C[0]`; a 1-bit coefficient is 0 or -1. -/
theorem test_coefficients :
    let s := inSubframe .coef 16 { kind := .lpc, order := 2, wasted := 0 }
    leads (exec (.coef 1 1) s) (fun t => t.files.c.toList.take 1 = [-1] && t.seq.pos = .coef && t.seq.idx = 1) = true ∧
      leads (exec (.coef 4 7) { s with seq := { s.seq with idx := 1 } }) (fun t =>
        (t.files.c.toList.drop 1).take 1 = [7] && t.seq.pos = .res) = true := by decide

/-- R261, R266: 192 samples in 128 partitions are BadPartition; 16 in 8 are not. -/
theorem test_residual_header :
    let s := inSubframe .res 16 { kind := .fixed, order := 2, wasted := 0 }
    leads (exec (.resRice4 7) { s with hdr := { s.hdr with bs := 192 } }) (faultIs 26 0) = true ∧
      leads (exec (.resRice5 3) s) (fun t => t.seq.pos = .part && t.seq.method = 1) = true ∧
      leads (exec (.resBadMethod 0) s) (faultIs 14 0) = true := by decide

/-- R265, R266: 16 samples in 8 partitions: order 4 leaves -2 for the first, order 2 leaves 0. -/
theorem test_partition :
    let s := fun o => { inSubframe .part 16 { kind := .fixed, order := o, wasted := 0 } with
      seq := { State.reset.seq with pos := .part, porder := 3 } }
    leads (exec (.part4 1) (s 4)) (faultIs 26 0) = true ∧
      leads (exec (.part4 1) (s 2)) (fun t => t.seq.pos = .part && t.seq.part = 1) = true ∧
      leads (exec (.part5 15) { s 2 with seq := { (s 2).seq with part := 1 } }) (fun t =>
        t.seq.pos = .rice && t.seq.todo = 2 && t.seq.m = 15) = true := by decide

/-- R264. -/
theorem test_escape :
    leads (exec .part4Esc (busyAt .part [])) (faultIs 15 0) = true ∧
      leads (exec .part5Esc (busyAt .part [])) (faultIs 15 0) = true := by decide

/-- R267: the worked codewords: 1, -3, -8; and without remainder bits 0, -1, 1. -/
theorem test_rice_values :
    [unzigzag (riceFold 2 0 2), unzigzag (riceFold 2 1 1), unzigzag (riceFold 2 3 3), unzigzag (riceFold 0 0 0),
      unzigzag (riceFold 0 1 0), unzigzag (riceFold 0 2 0)] = [1, -3, -8, 0, -1, 1] := by decide

/-- R281: the worked example of order 2, shift 1. -/
theorem test_prediction :
    predict [3, -2] [-200, 150] [10, -9, 0, 33, -1, 4] 1 = [-200, 150, 435, 493, 304, -4, -311, -459] := by decide

/-- R240 to R243: the worked examples of the FIXED orders. -/
theorem test_fixed_predictions :
    predict (fixedCoef 0) [] [5, -5, 0] 0 = [5, -5, 0] ∧ predict (fixedCoef 1) [10] [1, -2, 3] 0 = [10, 11, 9, 12] ∧
      predict (fixedCoef 2) [100, 110] [3, -2] 0 = [100, 110, 123, 134] ∧
      predict (fixedCoef 3) [1, 4, 9] [0, 1] 0 = [1, 4, 9, 16, 26] ∧
      predict (fixedCoef 4) [1, 8, 27, 64] [0, -1] 0 = [1, 8, 27, 64, 125, 215] := by decide

/-- R250, R238: the last residual of a FIXED subframe of order 1 with one wasted bit: 10, 11, 9, 12 doubled. -/
theorem test_last_residual :
    let s := inSubframe .rice 16 { kind := .fixed, order := 1, wasted := 1 }
    leads (exec (.rice 0 6 0)
      { s with
        hdr := { s.hdr with bs := 4 }, seq := { s.seq with todo := 1 },
        files := { s.files with w := s.files.w.setIfInBounds 0 10, r := [1, -2] } })
      (fun t => (List.range 4).map (fun i => memRead t.d (sampleAddr 0 i)) = [some 20, some 22, some 18, some 24]) =
      true := by decide

/-- R299: the padding bits go, whatever they are. -/
theorem test_padding :
    leads (step ((busyAt .pad []).withStream { blankStream with bytes := [0xAB], brCur := 0xFF, brN := 5 }))
      (fun t => t.stream.brN = 0 && t.stream.bytes = [0xAB] && t.seq.pos = .foot) = true := by decide

/-- R300, R301: a footer that matches counts the frame, one that does not is BadChecksum with 16, unless unchecked. -/
theorem test_footer :
    let s := (busyAt .foot []).withStream { blankStream with bytes := [0x12, 0x34], crc16 := 0x1234 }
    leads (step s) (fun t => t.status = .done && t.frameCount = 1 && t.ftCrc16 = 0x1234) = true ∧
      leads (step { s with src := { s.src with bytes := [0x34, 0x12] } }) (faultIs 11 16) = true ∧
      leads (step { s with
        src := { s.src with bytes := [0x34, 0x12] }, params := { padStrict := true, crc16Check := false } })
        (fun t => t.status = .done && t.ftCrc16 = 0x3412) = true := by decide

/-- R295, R302, R306: NEXT starts a frame in IDLE, here one without a byte, and is ignored in FAULT. -/
theorem test_next :
    leads (exec .next State.reset) (fun t => t.status = .busy && t.seq.pos = .frame) = true ∧
      leads (step { State.reset with host := [.write 2 1] }) (fun t => t.status = .eos && errCode t.err = 18) = true ∧
      leads (step { State.reset with host := [.write 2 1], status := .fault, err := .badSync })
        (fun t => t.status = .fault && t.err = .badSync) = true := by decide

/-- R296, R381: RESET leaves FAULT for IDLE and the source where it stands; in BUSY it is ignored. -/
theorem test_reset :
    leads (step { busyAt .foot [0x77] with host := [.write 2 2], status := .fault, frameCount := 9 })
        (fun t => t.status = .idle && t.frameCount = 0 && t.stream.bytes = [0x77]) = true ∧
      leads (step { busyAt .foot [0x77] with host := [.write 2 2] }) (fun t => t.status = .busy) = true := by decide

/-- R26, R38: a write keeps the bits of its register. -/
theorem test_host_writes :
    leads (step { State.reset with host := [.write 0 0xFFF0AC44] }) (fun t => t.cfgRate = 0x0AC44) = true ∧
      leads (step { State.reset with host := [.write 64 0x3FFFF] }) (fun t => t.dSel = 0x30007) = true := by decide

/-- R38, R76: the window: `D_SEL` for channel 1, index 3. -/
theorem test_host_window :
    let s := { inSubframe .frame 16 { kind := .constant, order := 0, wasted := 0 } with
      status := .done, d := [(sampleAddr 1 3, 42)], dSel := 0x30001, host := [.read 65] }
    leads (step s) (fun t => t.hostData = 42 && t.dSel = 0x30001) = true := by decide

/-! ### Witnesses: for each statement with hypotheses, data that meet them, each clause -/

/-- The stream of R141's worked example: bytes A5 C3. -/
def sample : Stream := { blankStream with bytes := [0xA5, 0xC3] }

theorem test_witness_DecodeOfEncode :
    (∃ rest, (Instr.frame 1 6 12 8 4).wellFormed = true ∧ (Instr.frame 1 6 12 8 4).padOk true = true ∧
        (Instr.frame 1 6 12 8 4).alignedAt (wordStream 32 0xFFF96C88 blankStream) = true ∧
        (wordStream 32 0xFFF96C88 blankStream).upcoming = encode (.frame 1 6 12 8 4) ++ rest) ∧
      (∃ rest, (Instr.padbits 5 22).wellFormed = true ∧ (Instr.padbits 5 22).padOk true = true ∧
        (Instr.padbits 5 22).alignedAt (wordStream 5 22 blankStream) = true ∧
        (wordStream 5 22 blankStream).upcoming = encode (.padbits 5 22) ++ rest) ∧
      ∃ rest, (Instr.subLpc 1 31 1).wellFormed = true ∧ (Instr.subLpc 1 31 1).padOk false = true ∧
        (Instr.subLpc 1 31 1).alignedAt (wordStream 8 0xFF blankStream) = true ∧
        (wordStream 8 0xFF blankStream).upcoming = encode (.subLpc 1 31 1) ++ rest := by
  refine ⟨⟨_, by decide, by decide, by decide, (List.prefix_iff_eq_append.1 ?_).symm⟩,
    ⟨_, by decide, by decide, by decide, (List.prefix_iff_eq_append.1 ?_).symm⟩,
    ⟨_, by decide, by decide, by decide, (List.prefix_iff_eq_append.1 ?_).symm⟩⟩ <;> decide

theorem test_witness_EncodeOfDecode :
    (wordStream 6 0b0001_11 blankStream).brN ≤ 7 ∧ (Format.rice 2 = .ft → (wordStream 6 7 blankStream).brN = 0) ∧
      (∀ m, Format.rice 2 = .rice m → m ≤ 30) ∧ (∀ b, Format.rice 2 = .coef b → b ≤ 15) ∧
      ∃ r, decode true (.rice 2) (wordStream 6 0b0001_11 blankStream) = .instr (.rice 2 3 3) r := by
  refine ⟨by decide, by decide, ?_, ?_, _, rfl⟩
  · rintro m h; cases h; decide
  · rintro b h; cases h

theorem test_witness_ReadReturnsTheNextBits :
    sample.brN ≤ 7 ∧ 1 ≤ 3 ∧ 3 ≤ 64 ∧ 3 ≤ sample.bitsLeft ∧
      ({ sample with brN := 1, bytes := List.replicate 8 0x55 } : Stream).brN ≤ 7 ∧
      64 ≤ ({ sample with brN := 1, bytes := List.replicate 8 0x55 } : Stream).bitsLeft := by decide

theorem test_witness_ReadStopsAtTheEnd :
    sample.brN ≤ 7 ∧ sample.bitsLeft < 17 ∧ ({ sample with brN := 5 } : Stream).brN ≤ 7 ∧
      5 ≤ ({ sample with brN := 5 } : Stream).brN := by decide

theorem test_witness_ReadsSplit : sample.brN = 0 ∧ sample.bytes = [0xA5] ++ [0xC3] := by decide

theorem test_witness_ReadsMoveTheCursor :
    sample.brN ≤ 7 ∧ sample.brN ≤ 8 * sample.srcPos.toNat ∧ sample.srcPos.toNat + sample.bytes.length < 2 ^ 64 ∧
      ∃ r, readAll [3, 7] sample = some r := ⟨by decide, by decide, by decide, _, rfl⟩

theorem test_witness_SignedFields :
    (∃ v r, 1 ≤ 1 ∧ 1 ≤ 64 ∧ sample.read 1 = .ok v r) ∧
      ∃ v r, 1 ≤ 64 ∧ 64 ≤ 64 ∧ ({ sample with bytes := List.replicate 8 0xFF } : Stream).read 64 = .ok v r :=
  ⟨⟨_, _, by decide, by decide, rfl⟩, ⟨_, _, by decide, by decide, rfl⟩⟩

theorem test_witness_UnaryCountsZeros :
    (wordStream 8 0x10 { blankStream with term := .eof }).upcoming.take 4 = List.replicate 3 false ++ [true] ∧
      ({ sample with bytes := [0x80] } : Stream).upcoming = List.replicate 0 false ++ true :: List.replicate 7 false ∧
      ∀ b ∈ ({ sample with bytes := [0, 0] } : Stream).upcoming, b = false := by decide

/-- BUSY at a position with no host access coming. -/
theorem ready_busyAt {p : Pos} {bytes : List Byte} (h : bytes.length < 2 ^ 64) : ready (busyAt p bytes) p :=
  ⟨rfl, rfl, rfl, by simpa [State.sourceFits, busyAt, blankStream, State.withStream] using h⟩

theorem test_witness_StepRunsTheDecodedInstruction :
    (∃ i r, (busyAt .numLead [0x41]).sourceFits = true ∧ (busyAt .numLead [0x41]).status = .busy ∧
        (busyAt .numLead [0x41]).host = [] ∧ (busyAt .numLead [0x41]).openElement.fetch = .instr i r) ∧
      (∃ i r, ({ busyAt .frame [0xFF, 0xF9, 0x6C, 0x88] with host := [.poll] } : State).openElement.fetch =
        .instr i r) ∧
      commandOfWrite 2 0xFF01 = some .next :=
  ⟨⟨_, _, by decide, rfl, rfl, rfl⟩, ⟨_, _, rfl⟩, by decide⟩

theorem test_witness_RejectedElementsFault :
    (∃ k r, (busyAt .frame [0, 0]).openElement.fetch = .illegal k r) ∧
      (∃ r, ((busyAt .numLead []).withStream { blankStream with term := .ioError 5 }).openElement.fetch =
          .stopped r ∧ r.term = .ioError 5) ∧
      (∃ r, (busyAt .frame [0xFF]).openElement.fetch = .stopped r ∧ r.term = .eof ∧
        ¬((busyAt .frame [0xFF]).seq.pos = .frame ∧ (busyAt .frame [0xFF]).stream.bytes = [])) ∧
      (busyAt .frame [0, 0]).sourceFits = true ∧ (busyAt .frame [0, 0]).status = .busy ∧
      (busyAt .frame [0, 0]).host = [] :=
  ⟨⟨_, _, rfl⟩, ⟨_, rfl, rfl⟩, ⟨_, rfl, rfl, by decide⟩, by decide, rfl, rfl⟩

theorem test_witness_EndOfStreamAtTheBoundary :
    (busyAt .frame []).stream.bytes = [] ∧ (busyAt .frame []).stream.brN = 0 ∧ ready (busyAt .frame []) .frame ∧
      (busyAt .frame []).stream.term = .eof ∧
      ready ((busyAt .frame []).withStream { blankStream with term := .ioError 5 }) .frame ∧
      ({ State.reset with status := .eos, host := [.write 2 1] } : State).src.bytes = [] ∧
      ({ State.reset with status := .eos, host := [.write 2 1] } : State).host = .write 2 1 :: [] :=
  ⟨rfl, rfl, ready_busyAt (by decide), rfl, ⟨rfl, rfl, rfl, by decide⟩, rfl, rfl⟩

theorem inv_reset : State.reset.Inv :=
  ⟨Nat.zero_le _, ⟨rfl, rfl⟩, ⟨rfl, fun e he => by cases he⟩, by decide, ⟨rfl, rfl, rfl⟩, fun _ => rfl⟩

/-- After reset with the source `bytes`, and a NEXT as the host's only access. -/
def nextOver (bytes : List Byte) : State :=
  { State.reset with src := { bytes := bytes, term := .eof }, host := [.write 2 1] }

theorem inv_nextOver (bytes : List Byte) : (nextOver bytes).Inv := inv_reset

theorem issuesNext_nextOver (bytes : List Byte) : issuesNext (nextOver bytes) :=
  ⟨.inl rfl, 1, [], rfl, by decide⟩

theorem test_witness_EndOfStreamOnlyThere :
    (∃ t, (busyAt .frame []).status = .busy ∧ step (busyAt .frame []) = .next t ∧ t.status = .eos) ∧
      ∃ t, (nextOver []).Inv ∧ issuesNext (nextOver []) ∧ step (nextOver []) = .next t ∧ t.status = .eos :=
  ⟨⟨_, rfl, rfl, rfl⟩, _, inv_nextOver _, issuesNext_nextOver _, rfl, rfl⟩

theorem test_witness_SyncAndFirstReservedBit :
    ready (busyAt .frame [0xFF, 0xF4]) .frame ∧ (busyAt .frame [0xFF, 0xF4]).stream.brN = 0 ∧
      (busyAt .frame [0xFF, 0xF4]).stream.bytes = 0xFF :: 0xF4 :: [] ∧ (0xFF#8 ++ 0xF4#8).extractLsb' 2 14 ≠ 0x3FFE ∧
      (0xFF#8 ++ 0xFA#8).extractLsb' 1 15 = 0x7FFD ∧ (0xFF#8 ++ 0xFB#8).extractLsb' 1 15 = 0x7FFD :=
  ⟨ready_busyAt (by decide), rfl, rfl, by decide, by decide, by decide⟩

theorem test_witness_FixedPartRows :
    ready (busyAt .frame [0xFF, 0xF9, 0x6C, 0x88]) .frame ∧
      (busyAt .frame [0xFF, 0xF9, 0x6C, 0x88]).stream.brN = 0 ∧
      (0xFF#8 ++ 0xF9#8 ++ 0x6C#8 ++ 0x88#8).extractLsb' 17 15 = 0x7FFC ∧
      (0xFF#8 ++ 0xF9#8 ++ 0x6C#8 ++ 0x88#8).getLsbD 0 = false ∧
      (0xFF#8 ++ 0xF8#8 ++ 0x6C#8 ++ 0x89#8).extractLsb' 17 15 = 0x7FFC ∧
      (0xFF#8 ++ 0xF8#8 ++ 0x6C#8 ++ 0x89#8).getLsbD 0 = true :=
  ⟨ready_busyAt (by decide), rfl, by decide, by decide, by decide, by decide⟩

theorem test_witness_Utf8ContinuationRows :
    ({ busyAt .numCont [] with seq := { State.reset.seq with numLeft := 1 } } : State).seq.numLeft = 1 ∧
      2 ≤ ({ busyAt .numCont [] with seq := { State.reset.seq with numLeft := 6 } } : State).seq.numLeft := by decide

theorem test_witness_HeaderChecksum :
    ready (busyAt .crc8 [0x6C]) .crc8 ∧ (busyAt .crc8 [0x6C]).stream.brN = 0 ∧
      (busyAt .crc8 [0x6C]).stream.bytes = 0x6C :: [] ∧ 0x6C ≠ (busyAt .crc8 [0x6C]).stream.crc8 ∧
      0x00 = (busyAt .crc8 [0x00]).stream.crc8 := ⟨ready_busyAt (by decide), rfl, rfl, by decide, by decide⟩

/-- R161, R165: 8364 is E2 82 AC, and the largest value takes 7 bytes. -/
theorem test_witness_Utf8IsInvertedByDecoding :
    8364 < 2 ^ 36 ∧ utf8Bytes 8364 = [0xE2, 0x82, 0xAC] ∧ ready (busyAt .numLead [0xE2, 0x82, 0xAC, 7]) .numLead ∧
      (busyAt .numLead [0xE2, 0x82, 0xAC, 7]).stream.brN = 0 ∧
      utf8Bytes (2 ^ 36 - 1) = [0xFE, 0xBF, 0xBF, 0xBF, 0xBF, 0xBF, 0xBF] :=
  ⟨by decide, by decide, ready_busyAt (by decide), rfl, by decide⟩

/-- R203: the fields of the worked header. -/
def workedHeader : HeaderFields :=
  { var := 1, bsc := 6, rc := 12, ca := 8, ssc := 4, num := 150370, bsTail := 1, rateTail := 48 }

set_option maxRecDepth 8000 in
/-- R203: its bytes and its CRC-8 are the worked example's. -/
theorem test_witness_LegalHeadersAreAccepted :
    workedHeader.legal ∧ workedHeader.bytes = [0xFF, 0xF9, 0x6C, 0x88, 0xF0, 0xA4, 0xAD, 0xA2, 0x01, 0x30] ∧
      crc8Of workedHeader.bytes = 0x6C ∧
      ready (busyAt .frame [0xFF, 0xF9, 0x6C, 0x88, 0xF0, 0xA4, 0xAD, 0xA2, 0x01, 0x30, 0x6C]) .frame ∧
      (workedHeader.result 44100 8).bs = 2 ∧ (workedHeader.result 44100 8).rate = 48000 :=
  ⟨by unfold HeaderFields.legal; decide, by decide, by decide, ready_busyAt (by decide), by decide, by decide⟩

theorem test_witness_SubframeHeaderRows :
    (0#1 = 0#1 ∨ State.reset.params.padStrict = false) ∧
      (1#1 = 0#1 ∨ ({ padStrict := false, crc16Check := true } : Params).padStrict = false) ∧
      (inSubframe .subHdr 16 { kind := .constant, order := 0, wasted := 0 }).seq.ch < 8 ∧
      0 < (inSubframe .subHdr 16 { kind := .constant, order := 0, wasted := 0 }).hdr.bs.toNat ∧
      (subframeRows 31).length = 8 := by decide

theorem test_witness_SubframeHeaderFaults :
    1#1 = 1#1 ∧ State.reset.params.padStrict = true ∧ (reservedRows 0 0 0 0).length = 5 := by decide

theorem test_witness_WastedBitsRow :
    (inSubframe .wsuffix 8 { kind := .constant, order := 0, wasted := 0 }).seq.ch < 8 ∧
      0 < (inSubframe .wsuffix 8 { kind := .constant, order := 0, wasted := 0 }).hdr.bs.toNat := by decide

theorem test_witness_SampleRows :
    (inSubframe .smp 16 { kind := .fixed, order := 1, wasted := 0 }).cur.kind = .fixed ∧
      (inSubframe .smp 16 { kind := .lpc, order := 32, wasted := 0 }).cur.kind = .lpc ∧
      (inSubframe .smp 16 { kind := .verbatim, order := 0, wasted := 0 }).cur.kind = .verbatim ∧
      (inSubframe .smp 16 { kind := .verbatim, order := 0, wasted := 0 }).seq.idx + 1 <
        (inSubframe .smp 16 { kind := .verbatim, order := 0, wasted := 0 }).hdr.bs.toNat := by decide

theorem test_witness_UncodedSubframeEnds :
    (inSubframe .smp 16 { kind := .constant, order := 0, wasted := 0 }).cur.kind = .constant ∧
      let s := inSubframe .smp 16 { kind := .verbatim, order := 0, wasted := 0 }
      let s1 := { s with seq := { s.seq with idx := 15, x := List.replicate 15 3 } }
      s1.cur.kind = .verbatim ∧ s1.seq.x.length = s1.seq.idx ∧ s1.seq.idx + 1 = s1.hdr.bs.toNat := by decide

theorem test_witness_LpcHeaderRows : 14#4 ≠ 15#4 := by decide

/-- The parameter 14 and the four lengths: -2, 2, 0 before another partition, 0 in the last one. -/
theorem test_witness_PartitionRows :
    14#4 ≠ 15#4 ∧ 30#5 ≠ 31#5 ∧ partitionLength 16 4 3 0 < 0 ∧ 0 < partitionLength 16 0 3 7 ∧ partitionLength 16 2 3 0 = 0 ∧
      let s := inSubframe .part 16 { kind := .lpc, order := 16, wasted := 0 }
      partitionLength s.hdr.bs s.order s.seq.porder s.seq.part = 0 ∧ s.cur.kind = .lpc ∧ 1 ≤ s.order ∧ s.order ≤ 32 ∧
        2 ^ s.seq.porder.toNat ≤ s.seq.part + 1 ∧ s.order + s.files.r.length = s.hdr.bs.toNat := by decide

theorem test_witness_PartitionLengthsAddUp :
    (16#17).toNat % 2 ^ (3#4).toNat = 0 ∧ (65536#17).toNat % 2 ^ (15#4).toNat = 0 ∧ (7#17).toNat % 2 ^ (0#4).toNat = 0 := by
  decide

theorem test_witness_RiceRow :
    let s := inSubframe .rice 16 { kind := .fixed, order := 0, wasted := 0 }
    2 ≤ ({ s with seq := { s.seq with todo := 2 } } : State).seq.todo ∧
      ({ s with seq := { s.seq with todo := 1, porder := 1 } } : State).seq.todo = 1 ∧
      ({ s with seq := { s.seq with todo := 1, porder := 1 } } : State).seq.part + 1 <
        2 ^ ({ s with seq := { s.seq with todo := 1, porder := 1 } } : State).seq.porder.toNat := by decide

theorem test_witness_LastResidualReconstructs :
    (∀ r ∈ [(⟨.fixed, 4, 0⟩ : SubRecord), ⟨.lpc, 1, 3⟩],
      let s := inSubframe .rice 16 r
      let s1 :=
        { s with
          files := { s.files with r := List.replicate (15 - r.order.toNat) 1 }, seq := { s.seq with todo := 1 } }
      s1.seq.todo = 1 ∧ s1.order + (s1.files.r.length + 1) = s1.hdr.bs.toNat ∧
        2 ^ s1.seq.porder.toNat ≤ s1.seq.part + 1 ∧
        ((s1.cur.kind = .fixed ∧ s1.order ≤ 4) ∨ (s1.cur.kind = .lpc ∧ 1 ≤ s1.order ∧ s1.order ≤ 32))) := by decide

theorem test_witness_PredictorRecurrence :
    ([3, -2] : List Word).length = ([-200, 150] : List Word).length ∧
      ([-200, 150] : List Word).length ≤ 2 ∧ 2 < ([-200, 150] : List Word).length + ([10, -9] : List Word).length := by
  decide

theorem test_witness_NoWrapOnSmallSamples :
    ([16384, -16384] : List Word).length ≤ 32 ∧
      ([1099511627775, -1099511627775] : List Word).length = ([16384, -16384] : List Word).length ∧
      (∀ c ∈ ([16384, -16384] : List Word), |c.toInt| ≤ 2 ^ 14) ∧
      (∀ x ∈ ([1099511627775, -1099511627775] : List Word), |x.toInt| < 2 ^ 40) ∧
      |(4611686018427387903 : Word).toInt| < 2 ^ 62 := by
  refine ⟨by decide, by decide, ?_, ?_, ?_⟩
  · simp only [List.forall_mem_cons, abs_le]
    exact ⟨by decide, by decide, by simp⟩
  · simp only [List.forall_mem_cons, abs_lt]
    exact ⟨by decide, by decide, by simp⟩
  · rw [abs_lt]
    decide

theorem test_witness_FixedRecurrences :
    4 ≤ 4 ∧ ([1, 8, 27, 64] : List Word).length = 4 ∧ 1 < ([0, -1] : List Word).length := by decide

theorem test_witness_Footer :
    ready (busyAt .foot [0x12, 0x34]) .foot ∧ (busyAt .foot [0x12, 0x34]).stream.brN = 0 ∧
      (busyAt .foot [0x12, 0x34]).stream.bytes = 0x12 :: 0x34 :: [] ∧ ready (busyAt .foot [0x12]) .foot ∧
      (busyAt .foot [0x12]).stream.bytes.length < 2 ∧ (busyAt .foot [0x12]).stream.term = .eof :=
  ⟨ready_busyAt (by decide), rfl, rfl, ready_busyAt (by decide), by decide, rfl⟩

theorem test_witness_CommandRows :
    writable State.reset ∧ (busyAt .frame []).status = .busy ∧
      ({ State.reset with status := .fault } : State).status = .fault ∧
      ({ State.reset with status := .fault } : State).status ≠ .busy ∧
      ({ busyAt .coef [] with host := [.resetLine] } : State).host = .resetLine :: [] :=
  ⟨Or.inl rfl, rfl, rfl, by decide, rfl⟩

theorem test_witness_HostWrites :
    (∀ n ∈ [0, 1, 2, 3, 64], ({ State.reset with host := [.write n 5] } : State).host = .write n 5 :: []) ∧
      writable { State.reset with host := [.write 0 5] } ∧ (4 : Word).extractLsb' 0 2 = 0#2 ∧
      (7 : Word).extractLsb' 0 2 = 3#2 ∧ ({ busyAt .frame [] with host := [.write 2 2] } : State).status = .busy ∧
      ({ State.reset with status := .fault, host := [.write 2 1] } : State).status = .fault ∧
      (1 : Word).extractLsb' 0 2 ≠ 2#2 := ⟨by decide, Or.inl rfl, by decide, by decide, rfl, rfl, by decide⟩

/-- A host read of each register; channel 1 of two, element 15 of 16; FAULT after each checksum mismatch. -/
theorem test_witness_HostReads :
    let s : State :=
      { inSubframe .frame 16 { kind := .lpc, order := 3, wasted := 1 } with
        status := .done, d := [(sampleAddr 1 15, 42)], dSel := 0xF0001 }
    s.status = .done ∧ s.status ≠ .busy ∧ s.dp.brN ≤ 7 ∧ 1 < s.hdr.nch.toNat ∧ (s.dSel.extractLsb' 0 3).toNat = 1 ∧
      (s.dSel.extractLsb' 16 16).toNat = 15 ∧ 15 < s.hdr.bs.toNat ∧ memRead s.d (sampleAddr 1 15) = some 42 ∧
      (∀ n, ({ s with host := [.read n] } : State).host = .read n :: []) ∧
      ∀ info ∈ [8, 16], ({ s with status := .fault, err := .badChecksum, errInner := info } : State).errInner = info :=
  ⟨rfl, by decide, by decide, by decide, by decide, by decide, by decide, by decide, fun _ => rfl, fun _ _ => rfl⟩

/-- R199, R342, R346: after a CRC-8 mismatch the stored byte reads; R33: another header register does not, and `FH_VAR` of
DONE does. -/
theorem test_host_reads :
    let s : State := { State.reset with hdr := { State.reset.hdr with crc8 := 0x9A, var := 1 } }
    leads (step { s with status := .fault, err := .badChecksum, errInner := 8, host := [.read 12] })
        (fun t => t.hostData = 0x9A) = true ∧
      State.specified { s with status := .fault, err := .badChecksum, errInner := 8 } 6 = false ∧
      leads (step { s with status := .done, host := [.read 6] }) (fun t => t.hostData = 1) = true := by decide

/-- BUSY at a frame header meets the invariant. -/
theorem inv_frame (bytes : List Byte) : (busyAt .frame bytes).Inv := by
  refine ⟨Nat.zero_le _, ⟨rfl, rfl⟩, ⟨rfl, fun e he => ?_⟩, ?_, ⟨rfl, rfl, rfl⟩, fun h => absurd rfl h⟩
  · cases he
  · show 0#32 &&& 0xFFF8#32 = 0#32
    decide

theorem test_witness_InvIsKept : ∃ t, (busyAt .frame [0, 0]).Inv ∧ step (busyAt .frame [0, 0]) = .next t :=
  ⟨_, inv_frame _, rfl⟩

theorem test_witness_EveryStepAnswers : (busyAt .frame [0, 0]).Inv ∧ (busyAt .frame [0, 0]).sourceFits = true :=
  ⟨inv_frame _, by decide⟩

theorem test_witness_FaultIsSticky :
    let s : State := { State.reset with status := .fault, err := .badSync, host := [.write 2 1] }
    ∃ t, s.status = .fault ∧ step s = .next t ∧ (∀ rest, s.host ≠ .resetLine :: rest) ∧
      ∀ n v rest, s.host = .write n v :: rest → commandOfWrite n v ≠ some .reset := by
  intro s
  refine ⟨_, rfl, rfl, fun rest h => ?_, fun n v rest h => ?_⟩
  · cases List.head_eq_of_cons_eq h
  · cases List.head_eq_of_cons_eq h
    decide

theorem test_witness_ElementsOnlyPull :
    ∃ t, (busyAt .frame [0, 0]).stream.brN ≤ 7 ∧ (busyAt .frame [0, 0]).status = .busy ∧
      (busyAt .frame [0, 0]).host = [] ∧ step (busyAt .frame [0, 0]) = .next t := ⟨_, by decide, rfl, rfl, rfl⟩

theorem test_witness_ElementsKeepTheRest :
    let s := inSubframe .smp 8 { kind := .constant, order := 0, wasted := 0 }
    let s1 := { s with src := { s.src with bytes := [0xFD] }, hdr := { s.hdr with bs := 1 } }
    ∃ t, s1.status = .busy ∧ s1.host = [] ∧ step s1 = .next t ∧ t.d = [(0, -3)] := ⟨_, rfl, rfl, rfl, by decide⟩

/-! A whole frame of one sample: header FF F8 69 02 00 00 (block-size code 6, 44100 Hz, one channel, 8 bits) with its CRC-8
9A, a CONSTANT subframe of value FD, and the footer B6 4B. Its eleven elements are FH, CA, SSC, U8, BSC, RC, CRC8, SFH, SMP,
FT.pad, FT. -/

def frameBytes : List Byte := [0xFF, 0xF8, 0x69, 0x02, 0x00, 0x00, 0x9A, 0x00, 0xFD, 0xB6, 0x4B]

set_option maxRecDepth 8000 in
/-- R297, R301, R392: one step decodes the frame and no byte more. -/
theorem test_frame :
    leads (step (nextOver (frameBytes ++ [0xFF]))) (fun t =>
      t.status = .done && t.frameCount = 1 && t.d = [(0, -3)] && t.src.bytes = [0xFF] && t.hdr.rate = 44100) = true := by
  decide

set_option maxRecDepth 8000 in
/-- From the state of another frame, with other samples and records: the same. -/
theorem leads_frame :
    leads (step (nextOver frameBytes)) (fun t => t.status = .done) = true ∧
      leads (step { nextOver frameBytes with frameCount := 5 }) (fun t => t.status = .done) = true := by decide

theorem test_witness_NextTerminates :
    ((busyAt .frame frameBytes).Inv ∧ (busyAt .frame frameBytes).sourceFits = true ∧
        (busyAt .frame frameBytes).status = .busy) ∧
      ((nextOver frameBytes).Inv ∧ (nextOver frameBytes).sourceFits = true ∧ writable (nextOver frameBytes) ∧
        (nextOver frameBytes).host = .write 2 1 :: [] ∧ (1 : Word).extractLsb' 0 2 = 1#2) ∧
      ∃ t, (nextOver frameBytes).status ≠ .busy ∧ step (nextOver frameBytes) = .next t :=
  ⟨⟨inv_frame _, by decide, rfl⟩, ⟨inv_nextOver _, by decide, .inl rfl, rfl, by decide⟩,
    let ⟨t, ht, _⟩ := next_of_leads leads_frame.1
    ⟨t, by decide, ht⟩⟩

theorem test_witness_ChecksumsMatchInDone :
    ∃ t, (nextOver frameBytes).Inv ∧ issuesNext (nextOver frameBytes) ∧ step (nextOver frameBytes) = .next t ∧
      t.status = .done :=
  let ⟨t, ht, hd⟩ := next_of_leads leads_frame.1
  ⟨t, inv_nextOver _, issuesNext_nextOver _, ht, by simpa using hd⟩

theorem test_witness_ChecksumsCoverTheFrame :
    ∃ t, (nextOver frameBytes).Inv ∧ issuesNext (nextOver frameBytes) ∧ step (nextOver frameBytes) = .next t ∧
      t.status = .done := test_witness_ChecksumsMatchInDone

/-- Both reach DONE. -/
theorem test_witness_FramesAreIndependent :
    ∃ t t', SameButHistory (nextOver frameBytes) { nextOver frameBytes with frameCount := 5 } ∧
      (nextOver frameBytes).Inv ∧ ({ nextOver frameBytes with frameCount := 5 } : State).Inv ∧
      issuesNext (nextOver frameBytes) ∧ step (nextOver frameBytes) = .next t ∧
      step { nextOver frameBytes with frameCount := 5 } = .next t' ∧ t.status = .done :=
  let ⟨t, ht, hd⟩ := next_of_leads leads_frame.1
  let ⟨t', ht', _⟩ := next_of_leads leads_frame.2
  ⟨t, t', rfl, inv_nextOver _, inv_nextOver frameBytes, issuesNext_nextOver _, ht, ht', by simpa using hd⟩

/-- The second state is in EOS with other header registers, records, samples and counters; the first reaches DONE. -/
theorem test_witness_FramesDependOnTheirBytes :
    let s' : State :=
      { nextOver frameBytes with
        status := .eos, err := .endOfStream, frameCount := 7, d := [(0, 99), (65536, 1)],
        hdr := { State.reset.hdr with bs := 4096, nch := 2, ss := 24 },
        subs := Vector.replicate 8 { kind := .lpc, order := 32, wasted := 3 }
        dp := { Datapath.reset with srcPos := 1000, brCur := 0xAA, crc16 := 0x1234 } }
    ∃ t, (nextOver frameBytes).Inv ∧ s'.Inv ∧ issuesNext (nextOver frameBytes) ∧ issuesNext s' ∧
      sameInputs (nextOver frameBytes) s' ∧ s'.sourceFits = true ∧ step (nextOver frameBytes) = .next t ∧
      t.status = .done := by
  obtain ⟨t, ht, hd⟩ := next_of_leads leads_frame.1
  refine ⟨t, inv_nextOver _, ⟨Nat.zero_le _, ⟨rfl, rfl⟩, ⟨rfl, ?_⟩, by decide, ⟨rfl, rfl, rfl⟩, fun _ => rfl⟩,
    issuesNext_nextOver _, ⟨.inr (.inr rfl), 1, [], rfl, by decide⟩, ⟨rfl, rfl, rfl, rfl, rfl⟩, by decide, ht,
    by simpa using hd⟩
  show ∀ e ∈ [(0, (99 : Word)), (65536, 1)], e.1 < Config.maxChannels * Config.maxBlock
  decide

end Sys2Proof.Tests
end

section
/-! PROOFS. What one element does to the state beside the stream, what a host write does, and the state after reset. -/

namespace Sys2Proof.Machine

/-! ### What an element can do -/

/-- What an instruction executed in BUSY can do to a state whose stream already stands behind it: one constructor per
shared operation, with the check that led there where the instruction itself makes one. -/
inductive ElementEffect (s : State) : State → Prop where
  /-- a host command in BUSY (R295, R296) -/
  | ignored : ElementEffect s s
  | raised (k : ErrKind) : ElementEffect s (s.raise k 0)
  | fixedPart (fix : FixedPart) : ElementEffect s { s with seq := { s.seq with fix := fix, pos := .ca } }
  | channels (ca : BitVec 4) : ElementEffect s (s.channelAssignment ca)
  | sampleSize (v : BitVec 6) : ElementEffect s (s.sampleSize v)
  | numberLead (extra : Nat) (v : BitVec 36) : ElementEffect s (s.utf8Lead extra v)
  | numberCont (payload : BitVec 6) : ElementEffect s (s.utf8Cont payload)
  | blockSize (v : BitVec 17) : ElementEffect s (s.blockSize v)
  | sampleRate (v : BitVec 20) : ElementEffect s (s.sampleRate v)
  | crc8Match (stored : BitVec 8) (h : stored = s.dp.crc8) :
      ElementEffect s (State.gotoSubframe { s with hdr := { s.hdr with crc8 := stored } } 0)
  | crc8Mismatch (stored : BitVec 8) (h : stored ≠ s.dp.crc8) :
      ElementEffect s (State.raise { s with hdr := { s.hdr with crc8 := stored } } .badChecksum 8)
  | subframeHeader (pad : BitVec 1) (t : BitVec 6) (wflag : BitVec 1) : ElementEffect s (s.subframeHeader pad t wflag)
  | wastedBits (zeros : Nat) : ElementEffect s (s.acceptHeader s.seq.kind s.seq.order (zeros + 1))
  | sample (v : Word) : ElementEffect s (s.sample v)
  | lpcHeader (prec : BitVec 4) (shift : BitVec 5) : ElementEffect s (s.lpcHeader prec shift)
  | coefficient (v : Word) : ElementEffect s (s.coefficient v)
  | residualHeader (method : BitVec 2) (porder : BitVec 4) : ElementEffect s (s.residualHeader method porder)
  | partition (mBits : Nat) (m : BitVec 5) : ElementEffect s (s.partition mBits m)
  | residual (v : Word) : ElementEffect s (s.residual v)
  | aligned : ElementEffect s (State.goto (s.withStream s.stream.align) .foot)
  | counted (stored : BitVec 16) (h : s.params.crc16Check = true → stored = s.dp.crc16) :
      ElementEffect s (State.frameDone { s with ftCrc16 := stored })
  | crc16Mismatch (stored : BitVec 16) (hc : s.params.crc16Check = true) (h : stored ≠ s.dp.crc16) :
      ElementEffect s (State.raise { s with ftCrc16 := stored } .badChecksum 16)

theorem execNext_busy {s : State} (hb : s.status = .busy) : execNext s = .next s := by
  simp [execNext, hb, Status.acceptsNext]

theorem execReset_busy {s : State} (hb : s.status = .busy) : execReset s = .next s := by
  simp [execReset, hb]

/-- The CRC-8 field: its two outcomes (R199). -/
theorem execCrc8_effect (stored : BitVec 8) (s : State) : ∃ t, execCrc8 stored s = .next t ∧ ElementEffect s t := by
  refine ⟨_, rfl, ?_⟩
  split
  · next h => exact .crc8Match stored h
  · next h => exact .crc8Mismatch stored h

/-- The footer: its two outcomes (R300, R301). -/
theorem execFoot_effect (stored : BitVec 16) (s : State) : ∃ t, execFoot stored s = .next t ∧ ElementEffect s t := by
  refine ⟨_, rfl, ?_⟩
  split
  · next h => exact .crc16Mismatch stored h.1 h.2
  · next h => exact .counted stored fun hc => by_contra fun hne => h ⟨hc, hne⟩

/-- Every instruction executed in BUSY is one of the shared operations. -/
theorem exec_effect (i : Instr) {s : State} (hb : s.status = .busy) : ∃ t, exec i s = .next t ∧ ElementEffect s t := by
  cases i with
  | next => exact ⟨s, execNext_busy hb, .ignored⟩
  | reset => exact ⟨s, execReset_busy hb, .ignored⟩
  | frame => exact ⟨_, rfl, .fixedPart _⟩
  | ca0 | ca1 | ca2 | ca3 | ca4 | ca5 | ca6 | ca7 | ca8 | ca9 | ca10 | ca11 | ca12 | ca13 | ca14 | ca15 =>
    exact ⟨_, rfl, .channels _⟩
  | ssc0 | ssc1 | ssc2 | ssc4 | ssc5 | ssc6 => exact ⟨_, rfl, .sampleSize _⟩
  | u8Lead1 | u8Lead2 | u8Lead3 | u8Lead4 | u8Lead5 | u8Lead6 | u8Lead7 => exact ⟨_, rfl, .numberLead _ _⟩
  | u8Cont => exact ⟨_, rfl, .numberCont _⟩
  | bsc1 | bsc2 | bsc3 | bsc4 | bsc5 | bsc6 | bsc7 | bsc8 | bsc9 | bsc10 | bsc11 | bsc12 | bsc13 | bsc14 | bsc15 =>
    exact ⟨_, rfl, .blockSize _⟩
  | rc0 | rc1 | rc2 | rc3 | rc4 | rc5 | rc6 | rc7 | rc8 | rc9 | rc10 | rc11 | rc12 | rc13 | rc14 =>
    exact ⟨_, rfl, .sampleRate _⟩
  | ssc3 | ssc7 | u8BadLead1 | u8BadLead8 | u8BadCont0 | u8BadCont3 | bsc0 | rc15 | subBadPad =>
    exact ⟨_, rfl, .raised _⟩
  | crc8 stored => exact execCrc8_effect stored s
  | subConstant | subVerbatim | subFixed0 | subFixed1 | subFixed2 | subFixed3 | subFixed4 | subLpc | subRsvd00001x
  | subRsvd0001xx | subRsvd001101 | subRsvd00111x | subRsvd01xxxx =>
    exact ⟨_, rfl, .subframeHeader _ _ _⟩
  | wsuffix zeros => exact ⟨_, rfl, .wastedBits zeros⟩
  | smp => exact ⟨_, rfl, .sample _⟩
  | lph | lphBadPrec | lphBadShift => exact ⟨_, rfl, .lpcHeader _ _⟩
  | coef => exact ⟨_, rfl, .coefficient _⟩
  | resRice4 | resRice5 | resBadMethod => exact ⟨_, rfl, .residualHeader _ _⟩
  | part4 | part4Esc | part5 | part5Esc => exact ⟨_, rfl, .partition _ _⟩
  | rice => exact ⟨_, rfl, .residual _⟩
  | padbits => exact ⟨_, rfl, .aligned⟩
  | foot stored => exact execFoot_effect stored s

/-- All one element can answer with a next state: an instruction's effect, a fault the decoder names, an end of input,
or nothing but the consumed bits. -/
theorem stepElement_cases {s t : State} (hb : s.status = .busy) (h : stepElement s = .next t) :
    ∃ r, (∃ i, s.openElement.fetch = .instr i r ∧ ElementEffect (s.openElement.withStream r) t) ∨
      (∃ k, s.openElement.fetch = .illegal k r ∧ t = (s.openElement.withStream r).raise k 0) ∨
      (s.openElement.fetch = .stopped r ∧
        t = (s.openElement.withStream r).endOfInput (s.seq.pos = .frame ∧ s.src.bytes = [])) ∨
      (s.openElement.fetch = .noCommand r ∧ t = s.openElement.withStream r) := by
  rw [stepElement] at h
  split at h
  · dsimp only at h
    split at h
    · next i r hf =>
      obtain ⟨u, hu, he⟩ := exec_effect i (s := s.openElement.withStream r) (by simpa using hb)
      cases hu.symm.trans h
      exact ⟨r, .inl ⟨i, hf, he⟩⟩
    · next k r hf => cases h; exact ⟨r, .inr (.inl ⟨k, hf, rfl⟩)⟩
    · next r hf => cases h; exact ⟨r, .inr (.inr (.inl ⟨hf, rfl⟩))⟩
    · next r hf => cases h; exact ⟨r, .inr (.inr (.inr ⟨hf, rfl⟩))⟩
    · cases h
  · cases h

/-! ### What an element leaves unchanged -/

/-- What every element leaves as it was (R32, R38, R250): configuration, window selector, parameters, the host's side, the
other channels' records, the sample memory outside the block of the channel being decoded; the frame counter moves only
with success. It reads of `s` only these items, the channel and the block size, so a state prepared from `s` that agrees in
them has the same frame by definition. -/
def ElementFrame (s t : State) : Prop :=
  t.cfgRate = s.cfgRate ∧ t.cfgBps = s.cfgBps ∧ t.dSel = s.dSel ∧ t.params = s.params ∧ t.host = s.host ∧
    t.hostData = s.hostData ∧ t.freeCount = s.freeCount ∧
    t.frameCount = (if t.status = .done then s.frameCount + 1 else s.frameCount) ∧
    (∀ c, c ≠ s.seq.ch → t.sub c = s.sub c) ∧ ∀ a, Claims.outsideBlock s a → memRead t.d a = memRead s.d a

/-- `s` with everything of `t` that decoding writes freely: stream, status, header registers, footer, predictor files and
the procedure's variables. -/
def State.decodingOf (s t : State) : State :=
  { s with
    src := t.src, dp := t.dp, status := t.status, err := t.err, errInner := t.errInner, hdr := t.hdr,
    ftCrc16 := t.ftCrc16, files := t.files, seq := t.seq }

/-- An operation that writes only there, and does not end the frame, respects the frame. -/
theorem ElementFrame.of_decodingOf {s t : State} (h : t = s.decodingOf t) (hd : t.status ≠ .done) : ElementFrame s t := by
  rw [h]
  exact ⟨rfl, rfl, rfl, rfl, rfl, rfl, rfl, (if_neg hd).symm, fun _ _ => rfl, fun _ _ => rfl⟩

theorem elementFrame_raise (s : State) (k : ErrKind) (info : BitVec 32) : ElementFrame s (s.raise k info) :=
  .of_decodingOf rfl (by simp)

theorem elementFrame_endOfInput (first : Bool) (s : State) : ElementFrame s (s.endOfInput first) := by
  unfold State.endOfInput
  split
  · exact elementFrame_raise s _ _
  · split
    · exact .of_decodingOf rfl (by simp)
    · exact elementFrame_raise s _ _

section Busy

variable {s : State} (hb : s.status = .busy)
include hb

theorem status_ne_done_of_busy : s.status ≠ .done := by simp [hb]

/-- The finish of a subframe stores the current channel's samples and nothing else (R250). -/
theorem elementFrame_finishSubframe : ElementFrame s s.finishSubframe := by
  refine ⟨rfl, rfl, rfl, rfl, rfl, rfl, rfl, by simp [hb], fun _ _ => rfl, fun a ha => ?_⟩
  rw [memRead_finishSubframe, if_neg]
  rintro ⟨hlow, hhigh⟩
  exact ha ⟨hlow, by omega⟩

theorem elementFrame_reconstruct : ElementFrame s s.reconstruct := by
  obtain ⟨f, x, h⟩ := reconstruct_eq_finish s
  rw [h]
  exact elementFrame_finishSubframe (s := { s with files := f, seq := { s.seq with x := x } }) hb

theorem elementFrame_nextPartition : ElementFrame s s.nextPartition := by
  obtain ⟨-, h⟩ | ⟨-, h⟩ := nextPartition_cases s <;> rw [h]
  · exact .of_decodingOf rfl (status_ne_done_of_busy hb)
  · exact elementFrame_reconstruct hb

theorem elementFrame_startBody : ElementFrame s s.startBody := by
  obtain ⟨p, h⟩ | ⟨-, h⟩ := startBody_cases s <;> rw [h]
  · exact .of_decodingOf rfl (status_ne_done_of_busy hb)
  · exact elementFrame_finishSubframe (s := { s with seq := { s.seq with x := [] } }) hb

/-- An accepted header writes the current channel's record (R233). -/
theorem elementFrame_acceptHeader (kind : SubKind) (order : BitVec 6) (w : Nat) :
    ElementFrame s (s.acceptHeader kind order w) := by
  obtain ⟨-, h⟩ | ⟨-, h⟩ := acceptHeader_cases s kind order w <;> rw [h]
  · exact elementFrame_raise s _ _
  · obtain ⟨h1, h2, h3, h4, h5, h6, h7, h8, hsub, hmem⟩ := elementFrame_startBody
      (s := { s with subs := s.subs.setIfInBounds s.seq.ch { kind := kind, order := order, wasted := BitVec.ofNat 6 w } }) hb
    exact ⟨h1, h2, h3, h4, h5, h6, h7, h8,
      fun c hc => (hsub c hc).trans (sub_setIfInBounds_ne (Ne.symm hc) _), hmem⟩

theorem elementFrame_channelAssignment (ca : BitVec 4) : ElementFrame s (s.channelAssignment ca) := by
  unfold State.channelAssignment
  split
  · exact elementFrame_raise s _ _
  · exact .of_decodingOf rfl (status_ne_done_of_busy hb)

theorem elementFrame_utf8Lead (extra : Nat) (v : BitVec 36) : ElementFrame s (s.utf8Lead extra v) := by
  unfold State.utf8Lead
  split <;> exact .of_decodingOf rfl (status_ne_done_of_busy hb)

theorem elementFrame_utf8Cont (payload : BitVec 6) : ElementFrame s (s.utf8Cont payload) := by
  unfold State.utf8Cont
  dsimp only
  split <;> exact .of_decodingOf rfl (status_ne_done_of_busy hb)

theorem elementFrame_subframeHeader (pad : BitVec 1) (t : BitVec 6) (wflag : BitVec 1) :
    ElementFrame s (s.subframeHeader pad t wflag) := by
  unfold State.subframeHeader
  split
  · exact elementFrame_raise s _ _
  · split
    · exact elementFrame_raise s _ _
    · split
      · exact elementFrame_acceptHeader hb _ _ _
      · exact .of_decodingOf rfl (status_ne_done_of_busy hb)

theorem elementFrame_sample (v : Word) : ElementFrame s (s.sample v) := by
  unfold State.sample
  dsimp only
  split
  · exact elementFrame_finishSubframe (s := { s with seq := { s.seq with x := List.replicate s.hdr.bs.toNat v } }) hb
  · split
    · exact .of_decodingOf rfl (status_ne_done_of_busy hb)
    · exact elementFrame_finishSubframe (s := { s with seq := { s.seq with x := s.seq.x ++ [v] } }) hb
  · split <;> exact .of_decodingOf rfl (status_ne_done_of_busy hb)
  · split <;> exact .of_decodingOf rfl (status_ne_done_of_busy hb)

theorem elementFrame_lpcHeader (prec : BitVec 4) (shift : BitVec 5) : ElementFrame s (s.lpcHeader prec shift) := by
  unfold State.lpcHeader
  split
  · exact elementFrame_raise s _ _
  · split
    · exact elementFrame_raise s _ _
    · exact .of_decodingOf rfl (status_ne_done_of_busy hb)

theorem elementFrame_coefficient (v : Word) : ElementFrame s (s.coefficient v) := by
  unfold State.coefficient
  dsimp only
  split <;> exact .of_decodingOf rfl (status_ne_done_of_busy hb)

theorem elementFrame_residualHeader (method : BitVec 2) (porder : BitVec 4) :
    ElementFrame s (s.residualHeader method porder) := by
  unfold State.residualHeader
  split
  · exact elementFrame_raise s _ _
  · split
    · exact elementFrame_raise s _ _
    · exact .of_decodingOf rfl (status_ne_done_of_busy hb)

theorem elementFrame_partition (mBits : Nat) (m : BitVec 5) : ElementFrame s (s.partition mBits m) := by
  unfold State.partition
  dsimp only
  split
  · exact elementFrame_raise s _ _
  · split
    · exact elementFrame_raise s _ _
    · split
      · exact elementFrame_nextPartition (s := { s with seq := { s.seq with m := m, todo := _, pos := .rice } }) hb
      · exact .of_decodingOf rfl (status_ne_done_of_busy hb)

theorem elementFrame_residual (v : Word) : ElementFrame s (s.residual v) := by
  unfold State.residual
  dsimp only
  split
  · exact elementFrame_nextPartition
      (s := { s with files := { s.files with r := _ }, seq := { s.seq with todo := _ } }) hb
  · exact .of_decodingOf rfl (status_ne_done_of_busy hb)

/-- Each shared operation respects the frame; only a frame's success counts it. -/
theorem ElementEffect.elementFrame {t : State} (h : ElementEffect s t) : ElementFrame s t := by
  have hd := status_ne_done_of_busy hb
  cases h with
  | raised => exact elementFrame_raise s _ _
  | ignored | fixedPart | sampleSize | blockSize | sampleRate | crc8Match | aligned => exact .of_decodingOf rfl hd
  | crc8Mismatch | crc16Mismatch => exact .of_decodingOf rfl (by simp)
  | channels => exact elementFrame_channelAssignment hb _
  | numberLead => exact elementFrame_utf8Lead hb _ _
  | numberCont => exact elementFrame_utf8Cont hb _
  | subframeHeader => exact elementFrame_subframeHeader hb _ _ _
  | wastedBits => exact elementFrame_acceptHeader hb _ _ _
  | sample => exact elementFrame_sample hb _
  | lpcHeader => exact elementFrame_lpcHeader hb _ _
  | coefficient => exact elementFrame_coefficient hb _
  | residualHeader => exact elementFrame_residualHeader hb _ _
  | partition => exact elementFrame_partition hb _ _
  | residual => exact elementFrame_residual hb _
  | counted => exact ⟨rfl, rfl, rfl, rfl, rfl, rfl, rfl, by simp, fun _ _ => rfl, fun _ _ => rfl⟩

end Busy

/-- Opening an element and consuming its bits touch only the stream. -/
theorem ElementFrame.of_fetched {s t : State} {r : Stream} (h : ElementFrame (s.openElement.withStream r) t) :
    ElementFrame s t := by
  simpa [ElementFrame, Claims.outsideBlock, State.sub] using h

theorem stepElement_elementFrame {s t : State} (hb : s.status = .busy) (h : stepElement s = .next t) :
    ElementFrame s t := by
  have hb' : ∀ r, (s.openElement.withStream r).status = .busy := fun r => by simpa using hb
  obtain ⟨r, ⟨i, -, he⟩ | ⟨k, -, rfl⟩ | ⟨-, rfl⟩ | ⟨-, rfl⟩⟩ := stepElement_cases hb h
  · exact .of_fetched (he.elementFrame (hb' r))
  · exact .of_fetched (elementFrame_raise _ _ _)
  · exact .of_fetched (elementFrame_endOfInput _ _)
  · exact .of_fetched (ElementEffect.ignored.elementFrame (hb' r))

/-! ### What a host write does -/

theorem acceptsWrites_of_writable {s : State} (h : Claims.writable s) : s.status.acceptsWrites = true := by
  obtain h | h | h := h <;> rw [h] <;> rfl

/-- In BUSY and FAULT a register write is ignored (R390, R306). -/
theorem hostWrite_of_not_accepted {s : State} (h : s.status.acceptsWrites = false) (n : Nat) (v : Word) :
    s.hostWrite n v = s := by
  simp [State.hostWrite, h]

/-- A number without a writable register takes no value (R76). -/
theorem hostWrite_other (s : State) {n : Nat} (v : Word) (h0 : n ≠ 0) (h1 : n ≠ 1) (h64 : n ≠ 64) :
    s.hostWrite n v = s := by
  unfold State.hostWrite
  split
  · split
    · exact absurd rfl h0
    · exact absurd rfl h1
    · exact absurd rfl h64
    · rfl
  · rfl

theorem hostWrite_cfgRate {s : State} (h : s.status.acceptsWrites = true) (v : Word) :
    s.hostWrite 0 v = { s with cfgRate := v.extractLsb' 0 20 } := by
  rw [State.hostWrite, if_pos h, ← BitVec.setWidth_eq_extractLsb' (by decide)]

theorem hostWrite_cfgBps {s : State} (h : s.status.acceptsWrites = true) (v : Word) :
    s.hostWrite 1 v = { s with cfgBps := v.extractLsb' 0 6 } := by
  rw [State.hostWrite, if_pos h, ← BitVec.setWidth_eq_extractLsb' (by decide)]

theorem hostWrite_dSel {s : State} (h : s.status.acceptsWrites = true) (v : Word) :
    s.hostWrite 64 v = { s with dSel := v.extractLsb' 0 32 &&& 0xFFFF0007#32 } := by
  rw [State.hostWrite, if_pos h, ← BitVec.setWidth_eq_extractLsb' (by decide)]

theorem commandOfWrite_of_ne {n : Nat} (v : Word) (h : n ≠ 2) : commandOfWrite n v = none := if_neg h

theorem commandOfWrite_two (v : Word) : commandOfWrite 2 v = commandOf (v.extractLsb' 0 2) := by
  rw [commandOfWrite, if_pos rfl, ← BitVec.setWidth_eq_extractLsb' (by decide)]

/-- A write issues NEXT or RESET, by the code in bits 1:0 of `CMD`, or no command (R28, R125). -/
theorem commandOfWrite_cases (n : Nat) (v : Word) :
    (n = 2 ∧ v.extractLsb' 0 2 = 1#2 ∧ commandOfWrite n v = some .next) ∨
      (n = 2 ∧ v.extractLsb' 0 2 = 2#2 ∧ commandOfWrite n v = some .reset) ∨ commandOfWrite n v = none := by
  by_cases hn : n = 2
  · subst hn
    rw [commandOfWrite_two]
    by_cases h1 : v.extractLsb' 0 2 = 1#2
    · exact .inl ⟨rfl, h1, by rw [h1]; rfl⟩
    · by_cases h2 : v.extractLsb' 0 2 = 2#2
      · exact .inr (.inl ⟨rfl, h2, by rw [h2]; rfl⟩)
      · exact .inr (.inr (by rw [commandOf, if_neg h1, if_neg h2]))
  · exact .inr (.inr (commandOfWrite_of_ne v hn))

theorem stepWrite_of_no_command {n : Nat} {v : Word} (h : commandOfWrite n v = none) (s : State) :
    stepWrite n v s = .next (s.hostWrite n v) := by
  rw [stepWrite, h]

theorem stepWrite_of_not_two {n : Nat} (h : n ≠ 2) (v : Word) (s : State) :
    stepWrite n v s = .next (s.hostWrite n v) := stepWrite_of_no_command (commandOfWrite_of_ne v h) s

/-- In BUSY every write is ignored, commands too (R390, R295, R296). -/
theorem stepWrite_busy {s : State} (hb : s.status = .busy) (n : Nat) (v : Word) : stepWrite n v s = .next s := by
  obtain ⟨-, -, hc⟩ | ⟨-, -, hc⟩ | hc := commandOfWrite_cases n v
  · rw [stepWrite, hc]
    exact (if_pos hb).trans (execNext_busy hb)
  · rw [stepWrite, hc]
    exact (if_pos hb).trans (execReset_busy hb)
  · rw [stepWrite_of_no_command hc, hostWrite_of_not_accepted (by rw [hb]; rfl)]

theorem execNext_fault {s : State} (hf : s.status = .fault) : execNext s = .next s := by
  simp [execNext, hf, Status.acceptsNext]

/-- In FAULT every write but RESET is ignored (R306). -/
theorem stepWrite_fault {s : State} (hf : s.status = .fault) {n : Nat} {v : Word}
    (hr : n ≠ 2 ∨ v.extractLsb' 0 2 ≠ 2#2) : stepWrite n v s = .next s := by
  have hb : s.status ≠ .busy := by simp [hf]
  obtain ⟨-, -, hc⟩ | ⟨hn, hv, -⟩ | hc := commandOfWrite_cases n v
  · rw [stepWrite, hc]
    calc _ = andThen (execNext s) fun t => runFrame t.elementBound t := if_neg hb
      _ = runFrame s.elementBound s := by rw [execNext_fault hf, andThen_next]
      _ = .next s := runFrame_of_not_busy hb _
  · exact absurd hr (by simp [hn, hv])
  · rw [stepWrite_of_no_command hc, hostWrite_of_not_accepted (by rw [hf]; rfl)]

end Sys2Proof.Machine

namespace Sys2Proof.Proofs

open Sys2Proof.Machine Sys2Proof.Claims

/-- Settles O55: each element is one shared operation over the fetched stream, and each of these respects the frame. -/
theorem elementsKeepTheRest : Obligations.ElementsKeepTheRest := by
  unfold Obligations.ElementsKeepTheRest
  intro s t hb hh ht
  rw [step_element hh hb] at ht
  have h : ElementFrame s t := stepElement_elementFrame hb ht
  rwa [ElementFrame, hh] at h

/-- Settles O47: each item of R40 by itself, the eight subframe records by their channel numbers. -/
theorem resetValues : Obligations.ResetValues := by
  unfold Obligations.ResetValues
  refine ⟨rfl, rfl, rfl, rfl, rfl, rfl, rfl, rfl, rfl, rfl, rfl, rfl, rfl, rfl, ?records, rfl, rfl⟩
  case records => decide

/-- Settles O48: a write that issues no command is a register write; in BUSY and FAULT nothing is taken but RESET. -/
theorem hostWrites : Obligations.HostWrites := by
  unfold Obligations.HostWrites
  intro s n v rest hh s1
  have hs : step s = stepWrite n v s1 := step_write hh
  have hwrite : writable s → s1.status.acceptsWrites = true := acceptsWrites_of_writable (s := s)
  refine ⟨fun hw hn => ?rate, fun hw hn => ?bps, fun hw hn => ?window, fun h0 h1 h2 h64 => ?other, fun hn hv => ?code,
    fun hb => hs.trans (stepWrite_busy (s := s1) hb n v), fun hf hr => hs.trans (stepWrite_fault (s := s1) hf hr)⟩
  case rate =>
    subst hn
    rw [hs, stepWrite_of_not_two (by decide), hostWrite_cfgRate (hwrite hw)]
  case bps =>
    subst hn
    rw [hs, stepWrite_of_not_two (by decide), hostWrite_cfgBps (hwrite hw)]
  case window =>
    subst hn
    rw [hs, stepWrite_of_not_two (by decide), hostWrite_dSel (hwrite hw)]
  case other => rw [hs, stepWrite_of_not_two h2, hostWrite_other s1 v h0 h1 h64]
  case code =>
    subst hn
    have hc : commandOfWrite 2 v = none := by
      rw [commandOfWrite_two]
      obtain hv | hv := hv <;> rw [hv] <;> rfl
    rw [hs, stepWrite_of_no_command hc, hostWrite_other s1 v (by decide) (by decide) (by decide)]

/-- Settles O50: in IDLE the invariant asks for a frame boundary and cleared fault registers. -/
theorem resetHasInv : Obligations.ResetHasInv := by
  unfold Obligations.ResetHasInv
  have hboundary : State.reset.boundary := ⟨rfl, rfl, rfl⟩
  have hmem : State.reset.memOk := ⟨memWf_reset, fun _ he => absurd he List.not_mem_nil⟩
  exact ⟨Nat.zero_le 7, ⟨rfl, rfl⟩, hmem, by decide, hboundary, fun _ => rfl⟩

end Sys2Proof.Proofs
end

section
/-! PROOFS. What a host read returns, and what an element does to the stream. -/

namespace Sys2Proof.Machine

/-! ### What a host read returns -/

/-- Outside BUSY a specified register reads as it stands. -/
theorem readValue_of_specified {s : State} {n : Nat} (hb : s.status ≠ .busy) (hn : s.specified n = true) :
    s.readValue n = s.regValue n := by
  rw [State.readValue, if_neg hb, if_pos hn]

section NoRegister

variable (s : State) {n : Nat}
  (h : n = 2 ∨ n = 14 ∨ n = 15 ∨ (19 ≤ n ∧ n < 32) ∨ (40 ≤ n ∧ n < 64) ∨ 65 < n)
include h

/-- A number without a register, and `CMD`, hold 0 (R28, R76). -/
theorem regValue_of_no_register : s.regValue n = 0 := by
  have hrec : ¬(32 ≤ n ∧ n < 40) := by omega
  unfold State.regValue
  split
  case h_19 => exact if_neg hrec
  all_goals omega

/-- What they read is specified. -/
theorem specified_of_no_register : s.specified n = true := by
  have hrec : ¬(32 ≤ n ∧ n < 40) := by omega
  unfold State.specified
  dsimp only
  split
  case h_10 => exact if_neg hrec
  all_goals omega

end NoRegister

/-- Register 32 + c holds the record of channel `c` (R34). -/
theorem regValue_record (s : State) {c : Nat} (hc : c < 8) : s.regValue (32 + c) = recordBits (s.sub c) := by
  interval_cases c <;> rfl

/-- In DONE the records of the frame's channels are specified (R34). -/
theorem specified_record {s : State} {c : Nat} (hd : s.status = .done) (hc : c < 8) (hn : c < s.hdr.nch.toNat) :
    s.specified (32 + c) = true := by
  have h : s.specified (32 + c) = decide (s.status = .idle ∨ (s.status = .done ∧ c < s.hdr.nch.toNat)) := by
    interval_cases c <;> rfl
  rw [h, decide_eq_true_iff]
  exact .inr ⟨hd, hn⟩

/-- In DONE the window's element is specified where the frame has written it (R38). -/
theorem specified_window {s : State} {x : Word} (hd : s.status = .done) (hc : s.selChannel < s.hdr.nch.toNat)
    (hi : s.selIndex < s.hdr.bs.toNat) (hx : memRead s.d (sampleAddr s.selChannel s.selIndex) = some x) :
    s.specified 65 = true :=
  decide_eq_true ⟨hd, hc, hi, by rw [hx]; rfl⟩

/-- The low three bits of `STATE`'s register are the state's code, whatever stands above them. -/
theorem code_or_and_seven (st : Status) {w : Word} (h : w &&& 7 = 0) :
    (w ||| zext64 st.code) &&& 7 = zext64 st.code := by
  have hc : zext64 st.code &&& 7 = zext64 st.code := by cases st <;> rfl
  rw [BitVec.and_comm, BitVec.and_or_distrib_left, BitVec.and_comm _ w, h, BitVec.and_comm, hc]
  exact BitVec.zero_or

/-- `STATE` reads in every state (R390). -/
theorem readValue_status (s : State) : s.readValue 3 &&& 7 = zext64 s.status.code := by
  by_cases hb : s.status = .busy
  · rw [State.readValue, if_pos hb, if_pos rfl]
    refine code_or_and_seven _ ?_
    rw [BitVec.and_assoc]
    exact BitVec.and_zero
  · rw [readValue_of_specified hb rfl]
    show (zext64 s.status.code ||| zext64 (errCode s.err) <<< 8) &&& 7 = _
    rw [BitVec.or_comm]
    refine code_or_and_seven _ ?_
    cases s.err <;> rfl

/-- Outside BUSY every register of `statusReads` is specified. -/
theorem statusReads_readValue {s : State} (hb : s.status ≠ .busy) (n : Nat) : Claims.statusReads s n (s.readValue n) := by
  have hread : ∀ {k}, s.specified k = true → s.readValue k = s.regValue k := readValue_of_specified hb
  refine ⟨?_, ?_, ?_, ?_, ?_, ?_, ?bits, ?_, ?_, fun h => ?none⟩
  case bits =>
    rintro rfl hn
    rw [hread rfl, ← Nat.mod_eq_of_lt (Nat.lt_succ_of_le hn)]
    rfl
  case none => rw [hread (specified_of_no_register s h), regValue_of_no_register s h]
  all_goals
    rintro rfl
    exact hread rfl

/-- In DONE the results of the frame are specified. -/
theorem resultReads_readValue {s : State} (hd : s.status = .done) (n : Nat) : Claims.resultReads s n (s.readValue n) := by
  have hread : ∀ {k}, s.specified k = true → s.readValue k = s.regValue k := readValue_of_specified (by simp [hd])
  have hfresh : s.status = .idle ∨ s.status = .done := .inr hd
  refine ⟨?_, ?_, ?_, ?_, ?_, ?_, ?crc8, ?crc16, fun c hc hn h8 => ?record, ?window⟩
  case record => rw [hn, hread (specified_record hd h8 hc), regValue_record s h8]; rfl
  case window =>
    rintro c i x rfl rfl rfl hc hi hx
    rw [hread (specified_window hd hc hi hx)]
    exact congrArg (·.getD 0) hx
  case crc8 | crc16 =>
    rintro rfl
    exact hread (decide_eq_true (.inl hfresh))
  all_goals
    rintro rfl
    exact hread (decide_eq_true hfresh)

/-! ### The stream after an element -/

/-- Source and datapath together are as they were when each is. -/
theorem stream_congr {s t : State} (hs : t.src = s.src) (hd : t.dp = s.dp) : t.stream = s.stream := by
  rw [State.stream, hs, hd]

theorem acceptHeader_stream (s : State) (kind : SubKind) (order : BitVec 6) (w : Nat) :
    (s.acceptHeader kind order w).stream = s.stream := by
  obtain ⟨-, h⟩ | ⟨-, h⟩ := acceptHeader_cases s kind order w <;> rw [h]
  · rfl
  · exact stream_congr (State.startBody_src _) (State.startBody_dp _)

theorem nextPartition_stream (s : State) : s.nextPartition.stream = s.stream :=
  stream_congr s.nextPartition_src s.nextPartition_dp

theorem channelAssignment_stream (s : State) (ca : BitVec 4) : (s.channelAssignment ca).stream = s.stream := by
  unfold State.channelAssignment
  split <;> rfl

theorem utf8Lead_stream (s : State) (extra : Nat) (v : BitVec 36) : (s.utf8Lead extra v).stream = s.stream := by
  unfold State.utf8Lead
  split <;> rfl

theorem utf8Cont_stream (s : State) (payload : BitVec 6) : (s.utf8Cont payload).stream = s.stream := by
  unfold State.utf8Cont
  dsimp only
  split <;> rfl

theorem subframeHeader_stream (s : State) (pad : BitVec 1) (t : BitVec 6) (wflag : BitVec 1) :
    (s.subframeHeader pad t wflag).stream = s.stream := by
  unfold State.subframeHeader
  split
  · rfl
  · split
    · rfl
    · split
      · exact acceptHeader_stream s _ _ _
      · rfl

theorem sample_stream (s : State) (v : Word) : (s.sample v).stream = s.stream := by
  unfold State.sample
  dsimp only
  split
  · rfl
  all_goals split <;> rfl

theorem lpcHeader_stream (s : State) (prec : BitVec 4) (shift : BitVec 5) :
    (s.lpcHeader prec shift).stream = s.stream := by
  unfold State.lpcHeader
  split
  · rfl
  · split <;> rfl

theorem coefficient_stream (s : State) (v : Word) : (s.coefficient v).stream = s.stream := by
  unfold State.coefficient
  dsimp only
  split <;> rfl

theorem residualHeader_stream (s : State) (method : BitVec 2) (porder : BitVec 4) :
    (s.residualHeader method porder).stream = s.stream := by
  unfold State.residualHeader
  split
  · rfl
  · split <;> rfl

theorem partition_stream (s : State) (mBits : Nat) (m : BitVec 5) : (s.partition mBits m).stream = s.stream := by
  unfold State.partition
  dsimp only
  split
  · rfl
  · split
    · rfl
    · split
      · exact nextPartition_stream _
      · rfl

theorem residual_stream (s : State) (v : Word) : (s.residual v).stream = s.stream := by
  unfold State.residual
  dsimp only
  split
  · exact nextPartition_stream _
  · rfl

/-- Executing an element leaves the fetched stream alone; PADBITS drops the unread bits (R299). -/
theorem ElementEffect.stream {s t : State} (h : ElementEffect s t) :
    t.stream = s.stream ∨ t.stream = s.stream.align := by
  cases h with
  | aligned => exact .inr rfl
  | ignored | raised | fixedPart | sampleSize | blockSize | sampleRate | crc8Match | crc8Mismatch | counted
  | crc16Mismatch => exact .inl rfl
  | channels => exact .inl (channelAssignment_stream s _)
  | numberLead => exact .inl (utf8Lead_stream s _ _)
  | numberCont => exact .inl (utf8Cont_stream s _)
  | subframeHeader => exact .inl (subframeHeader_stream s _ _ _)
  | wastedBits => exact .inl (acceptHeader_stream s _ _ _)
  | sample => exact .inl (sample_stream s _)
  | lpcHeader => exact .inl (lpcHeader_stream s _ _)
  | coefficient => exact .inl (coefficient_stream s _)
  | residualHeader => exact .inl (residualHeader_stream s _ _)
  | partition => exact .inl (partition_stream s _ _)
  | residual => exact .inl (residual_stream s _)

/-- An end of input leaves the stream alone; the sentinel switches the tees off (R302). -/
theorem endOfInput_stream (first : Bool) (s : State) :
    (s.endOfInput first).stream = s.stream ∨
      (s.endOfInput first).stream = { s.stream with tee8 := false, tee16 := false } := by
  unfold State.endOfInput
  split
  · exact .inl rfl
  · split
    · exact .inr rfl
    · exact .inl rfl

/-- The stream after an element is the one behind the element's bits, but for the unread bits that PADBITS drops and the
tees that the sentinel switches off. -/
theorem stepElement_stream {s t : State} (hb : s.status = .busy) (h : stepElement s = .next t) :
    let r := s.openElement.fetch.rest s.openElement.stream
    t.stream = r ∨ t.stream = r.align ∨ t.stream = { r with tee8 := false, tee16 := false } := by
  intro r
  obtain ⟨r', ⟨i, hf, he⟩ | ⟨k, hf, rfl⟩ | ⟨hf, rfl⟩ | ⟨hf, rfl⟩⟩ := stepElement_cases hb h <;>
    have hr : r = r' := by simp only [r, hf, Decoded.rest]
  · exact hr ▸ he.stream.imp_right .inl
  · exact .inl hr.symm
  · exact hr ▸ (endOfInput_stream _ _).imp_right .inr
  · exact .inl hr.symm

/-- The stream behind an element is the one it was read from after some pulls. -/
theorem rest_pulled {r : Stream} {d : Decoded} (hn : r.brN ≤ 7) (h : d.Consumes r) :
    ∃ ps, Pulled ps r (d.rest r) ∧ (d.rest r).brN ≤ 7 := by
  obtain ⟨r', hr', ⟨ps, hp⟩, ⟨n, rfl⟩ | hd⟩ := h
  · exact ⟨[], Pulled_refl r, hn⟩
  · cases d with
    | badWidth => exact ⟨[], Pulled_refl r, hn⟩
    | instr | illegal | stopped | noCommand =>
      rw [← hd] at hp hr'
      exact ⟨ps, hp, hr'⟩

@[simp] theorem State.openElement_srcPos (s : State) : s.openElement.dp.srcPos = s.dp.srcPos := by
  unfold State.openElement
  split <;> rfl

@[simp] theorem State.openElement_brN (s : State) : s.openElement.dp.brN = s.dp.brN := by
  unfold State.openElement
  split <;> rfl

end Sys2Proof.Machine

namespace Sys2Proof.Proofs

open Sys2Proof.Machine Sys2Proof.Claims

/-- Settles O49: a read shows a specified register as it stands; which registers are specified depends on `STATE`. -/
theorem hostReads : Obligations.HostReads := by
  unfold Obligations.HostReads
  intro s n rest hh
  refine ⟨_, step_read hh, rfl, ?status, fun hb => statusReads_readValue (s := { s with host := rest }) hb n,
    fun hd => resultReads_readValue (s := { s with host := rest }) hd n, fun hf he => ⟨?crc8, ?crc16⟩⟩
  case status =>
    rintro rfl
    exact readValue_status { s with host := rest }
  case crc8 | crc16 =>
    rintro rfl hi
    exact readValue_of_specified (s := { s with host := rest }) (by simp [hf]) (decide_eq_true (.inr ⟨hf, he, hi⟩))

/-- Settles O54: the element's bits are pulled from the opened stream, and executing it leaves source, position and CRCs
alone. -/
theorem elementsOnlyPull : Obligations.ElementsOnlyPull := by
  unfold Obligations.ElementsOnlyPull
  intro s t hn hb hh ht
  rw [step_element hh hb] at ht
  have hopen : s.openElement.stream.brN ≤ 7 := by simpa using hn
  obtain ⟨ps, ⟨hbytes, hterm, hpos, -, -, hcrc8, hcrc16⟩, hrest⟩ := rest_pulled hopen (fetch_consumes s.openElement hopen)
  rw [State.stream_toSource, State.openElement_src] at hbytes hterm
  rw [State.stream_toDatapath, State.openElement_srcPos] at hpos
  obtain h | h | h := stepElement_stream hb ht <;> rw [h]
  · exact ⟨ps, hbytes, hterm, hpos, hrest, hcrc8, hcrc16⟩
  · exact ⟨ps, hbytes, hterm, hpos, Nat.zero_le 7, hcrc8, hcrc16⟩
  · exact ⟨ps, hbytes, hterm, hpos, hrest, hcrc8, hcrc16⟩

end Sys2Proof.Proofs
end

section
/-! PROOFS. What the decoder makes of known bits: over the encoding of a well-formed instruction it gives that instruction
back. -/

namespace Sys2Proof.Machine

/-! ### The bits of a number -/

theorem msbBits_append (m n v : Nat) : msbBits (m + n) v = msbBits m (v / 2 ^ n) ++ msbBits n v := by
  induction m with
  | zero => rw [Nat.zero_add]; rfl
  | succ m ih => rw [Nat.succ_add, msbBits, msbBits, ih, Nat.testBit_div_two_pow]; rfl

theorem msbBits_mod (n v : Nat) : msbBits n (v % 2 ^ n) = msbBits n v := by
  rw [← bitsValue_msbBits, msbBits_bitsValue _ _ (length_msbBits n v)]

theorem msbBits_inj {n v w : Nat} : msbBits n v = msbBits n w ↔ v % 2 ^ n = w % 2 ^ n := by
  refine ⟨fun h => ?_, fun h => ?_⟩
  · rw [← bitsValue_msbBits, h, bitsValue_msbBits]
  · rw [← msbBits_mod n v, h, msbBits_mod]

/-! ### What a read that succeeds has taken -/

theorem readLoop_ok {n v w : Nat} {r r' : Stream} (h : r.readLoop n v = .ok w r') :
    ∃ bits : List Bool, bits.length = n ∧ r.upcoming = bits ++ r'.upcoming ∧ w = bitsValue v bits := by
  induction n generalizing r v with
  | zero => cases h; exact ⟨[], rfl, rfl, rfl⟩
  | succ n ih =>
    rw [Stream.readLoop] at h
    split at h
    · cases h
    · next b r1 hb =>
      obtain ⟨bits, hlen, hup, hw⟩ := ih h
      exact ⟨b :: bits, congrArg (· + 1) hlen, (readBit_spec hb).1.trans (congrArg (b :: ·) hup), hw⟩

/-- A field is the next bits of the stream, as a number of that width (R141). -/
theorem read_ok {n w : Nat} {r r' : Stream} (h : r.read n = .ok w r') :
    w < 2 ^ n ∧ r.upcoming = msbBits n w ++ r'.upcoming := by
  obtain ⟨bits, rfl, hup, rfl⟩ := readLoop_ok h
  exact ⟨bitsValue_lt bits, by rw [msbBits_bitsValue bits _ rfl]; exact hup⟩

theorem unaryLoop_ok {fuel q w : Nat} {r r' : Stream} (h : r.unaryLoop fuel q = .ok w r') :
    q ≤ w ∧ r.upcoming = unaryBits (w - q) ++ r'.upcoming := by
  induction fuel generalizing r q with
  | zero => cases h
  | succ fuel ih =>
    rw [Stream.unaryLoop] at h
    split at h
    · cases h
    · next r1 hb =>
      cases h
      exact ⟨le_rfl, by rw [(readBit_spec hb).1, Nat.sub_self]; rfl⟩
    · next r1 hb =>
      obtain ⟨hq, hup⟩ := ih h
      refine ⟨by omega, ?_⟩
      rw [(readBit_spec hb).1, hup, show w - q = (w - (q + 1)) + 1 by omega]
      rfl

/-- A unary count is the 0 bits before a 1 bit (R145). -/
theorem readUnary_ok {w : Nat} {r r' : Stream} (h : r.readUnary = .ok w r') :
    r.upcoming = unaryBits w ++ r'.upcoming :=
  (unaryLoop_ok h).2

end Sys2Proof.Machine

namespace Sys2Proof

open Sys2Proof.Machine

/-! ### The bits of a bit vector -/

theorem toNat_append_eq {m n : Nat} (a : BitVec m) (b : BitVec n) : (a ++ b).toNat = a.toNat * 2 ^ n + b.toNat := by
  rw [BitVec.toNat_append, ← Nat.shiftLeft_add_eq_or_of_lt b.isLt, Nat.shiftLeft_eq]

theorem bvBits_append {m n : Nat} (a : BitVec m) (b : BitVec n) : bvBits (a ++ b) = bvBits a ++ bvBits b := by
  have hb : b.toNat < 2 ^ n := b.isLt
  rw [bvBits, msbBits_append, toNat_append_eq, Nat.mul_comm, Nat.mul_add_div (Nat.two_pow_pos n),
    Nat.div_eq_of_lt hb, ← msbBits_mod n, Nat.mul_add_mod, Nat.mod_eq_of_lt hb]
  rfl

theorem bvBits_ofNat (n v : Nat) : bvBits (BitVec.ofNat n v) = msbBits n v := by
  rw [bvBits, BitVec.toNat_ofNat, msbBits_mod]

theorem eq_of_bvBits_eq {n : Nat} {a b : BitVec n} (h : bvBits a = bvBits b) : a = b := by
  have := msbBits_inj.1 h
  rwa [Nat.mod_eq_of_lt a.isLt, Nat.mod_eq_of_lt b.isLt, ← BitVec.toNat_eq] at this

theorem ofNat_toNat_self {n : Nat} (v : BitVec n) : BitVec.ofNat n v.toNat = v := by
  rw [BitVec.ofNat_toNat, BitVec.setWidth_eq]

theorem exists_ofNat {n : Nat} (v : BitVec n) : ∃ k < 2 ^ n, v = BitVec.ofNat n k :=
  ⟨v.toNat, v.isLt, (ofNat_toNat_self v).symm⟩

theorem ofNat_append_toNat {m n : Nat} (a : BitVec m) (b : BitVec n) : BitVec.ofNat n (a ++ b).toNat = b := by
  apply BitVec.eq_of_toNat_eq
  rw [BitVec.toNat_ofNat, toNat_append_eq, Nat.mul_add_mod_self_right, Nat.mod_eq_of_lt b.isLt]

/-- The first bit is the most significant. -/
theorem toNat_append_lt_iff {n : Nat} (b : BitVec 1) (v : BitVec n) : (b ++ v).toNat < 2 ^ n ↔ b = 0#1 := by
  have hv := v.isLt
  rw [toNat_append_eq]
  obtain rfl | rfl := b.eq_zero_or_eq_one <;> simp [hv]

theorem exists_append {m n : Nat} (v : BitVec (m + n)) : ∃ (a : BitVec m) (b : BitVec n), v = a ++ b :=
  ⟨v.extractLsb' n m, v.extractLsb' 0 n, by simp⟩

theorem ofNat_append_extractLsb' (m x : Nat) {n : Nat} {t : BitVec (m + n)} (h : t.toNat / 2 ^ n = x) :
    BitVec.ofNat m x ++ t.extractLsb' 0 n = t := by
  have hx : x < 2 ^ m := by
    have hlt := t.isLt
    rw [Nat.pow_add, Nat.mul_comm] at hlt
    exact h ▸ Nat.div_lt_of_lt_mul hlt
  apply BitVec.eq_of_toNat_eq
  rw [toNat_append_eq, BitVec.toNat_ofNat, Nat.mod_eq_of_lt hx, ← h, BitVec.extractLsb'_toNat, Nat.shiftRight_zero,
    Nat.mul_comm, Nat.div_add_mod]

theorem extractLsb'_zero_one {n : Nat} (v : BitVec n) : v.extractLsb' 0 1 = if v.getLsbD 0 then 1#1 else 0#1 := by
  have h : (v.extractLsb' 0 1).getLsbD 0 = v.getLsbD 0 := by simp
  obtain h0 | h0 := (v.extractLsb' 0 1).eq_zero_or_eq_one <;> rw [← h, h0] <;> rfl

/-- A field that fits 64 bits is held as a word without loss. -/
theorem toNat_ofNat_toNat {n : Nat} (hn : n ≤ 64) (v : BitVec n) : (BitVec.ofNat 64 v.toNat).toNat = v.toNat :=
  (BitVec.toNat_ofNat _ _).trans (Nat.mod_eq_of_lt (v.isLt.trans_le (Nat.pow_le_pow_right (by decide) hn)))

/-- A pattern's fixed bits and the operand bits below them are the number itself. -/
theorem bvBits_pattern (m x : Nat) {n v : Nat} (h : v / 2 ^ n = x) :
    bvBits (BitVec.ofNat m x) ++ bvBits (BitVec.ofNat n v) = msbBits (m + n) v := by
  rw [msbBits_append, h, bvBits_ofNat, bvBits_ofNat]

theorem bvBits_extractLsb' {w : Nat} (k n : Nat) (v : BitVec w) :
    bvBits (v.extractLsb' k n) = msbBits n (v.toNat / 2 ^ k) := by
  rw [bvBits, BitVec.extractLsb'_toNat, msbBits_mod, Nat.shiftRight_eq_div_pow]

/-- On a byte boundary the bits to come are those of the bytes to come. -/
theorem upcoming_of_aligned {r : Stream} (hn : r.brN = 0) : r.upcoming = r.bytes.flatMap bvBits := by
  rw [Stream.upcoming, hn]
  rfl

/-- On a byte boundary a pull is the next eight bits. -/
theorem pull_upcoming {r r' : Stream} {b : Byte} (hn : r.brN = 0) (h : r.pull = some (b, r')) :
    r'.brN = 0 ∧ r.upcoming = bvBits b ++ r'.upcoming := by
  obtain ⟨hb, -, -, -, hn', -⟩ := pull_spec h
  refine ⟨hn'.trans hn, ?_⟩
  rw [Stream.upcoming, Stream.upcoming, hn', hn, hb]
  rfl

/-! ### Decoding known bits -/

/-- `d` is the outcome `c`, with exactly the bits `rest` not yet consumed behind it. -/
def Decoded.Leaves (c : Stream → Decoded) (rest : List Bool) (d : Decoded) : Prop :=
  ∃ r', d = c r' ∧ r'.upcoming = rest

section Leaves

variable {c : Stream → Decoded} {rest bits : List Bool} {r : Stream} {k : Nat → Stream → Decoded}

theorem field_leaves_mod {n x : Nat} (h : r.upcoming = msbBits n x ++ bits)
    (hk : ∀ r1, r1.upcoming = bits → (k (x % 2 ^ n) r1).Leaves c rest) : (field n r k).Leaves c rest := by
  obtain ⟨r1, hr, hup⟩ := read_of_upcoming (length_msbBits n x) h
  rw [bitsValue_msbBits] at hr
  rw [field, hr]
  exact hk r1 hup

theorem field_leaves {n : Nat} (v : BitVec n) (h : r.upcoming = bvBits v ++ bits)
    (hk : ∀ r1, r1.upcoming = bits → (k v.toNat r1).Leaves c rest) : (field n r k).Leaves c rest :=
  field_leaves_mod h (by rwa [Nat.mod_eq_of_lt v.isLt])

theorem sizedField_leaves {n x : Nat} (hn : 1 ≤ n ∧ n ≤ 64) (h : r.upcoming = msbBits n x ++ bits) (hx : x < 2 ^ n)
    (hk : ∀ r1, r1.upcoming = bits → (k x r1).Leaves c rest) : (sizedField n r k).Leaves c rest := by
  rw [sizedField, if_pos (show 1 ≤ n ∧ n ≤ Config.maxRead from hn)]
  exact field_leaves_mod h (by rwa [Nat.mod_eq_of_lt hx])

theorem unaryField_leaves {q : Nat} (h : r.upcoming = unaryBits q ++ bits)
    (hk : ∀ r1, r1.upcoming = bits → (k q r1).Leaves c rest) : (unaryField r k).Leaves c rest := by
  obtain ⟨r1, hr, hup⟩ := readUnary_of_upcoming q (h.trans (List.append_assoc _ _ _))
  rw [unaryField, hr]
  exact hk r1 hup

/-- The last field of an instruction. -/
theorem operand_leaves {n : Nat} {row : BitVec n → Instr} (v : BitVec n) (h : r.upcoming = bvBits v ++ rest) :
    (field n r fun v r1 => .instr (row (BitVec.ofNat n v)) r1).Leaves (.instr (row v)) rest :=
  field_leaves v h fun r1 h1 => ⟨r1, by rw [ofNat_toNat_self], h1⟩

/-- A Rice parameter that is not the escape code. -/
theorem param_leaves {n e : Nat} {esc : Instr} {row : BitVec n → Instr} (m : BitVec n) (hm : m.toNat ≠ e)
    (h : r.upcoming = bvBits m ++ rest) :
    (field n r fun m r1 => .instr (if m = e then esc else row (BitVec.ofNat n m)) r1).Leaves (.instr (row m)) rest :=
  field_leaves m h fun r1 h1 => ⟨r1, by rw [if_neg hm, ofNat_toNat_self], h1⟩

end Leaves

/-! ### The rows of a lead byte, a continuation byte and a type code -/

-- Each pattern of R102 is one range of `leadOf` or `contOf`.
theorem leadOf_lead1 (p : BitVec 7) : leadOf (0b0#1 ++ p).toNat = .u8Lead1 p := by
  grind [leadOf, toNat_append_eq, ofNat_append_toNat]

theorem leadOf_badLead1 (p : BitVec 6) : leadOf (0b10#2 ++ p).toNat = .u8BadLead1 p := by
  grind [leadOf, toNat_append_eq, ofNat_append_toNat]

theorem leadOf_lead2 (p : BitVec 5) : leadOf (0b110#3 ++ p).toNat = .u8Lead2 p := by
  grind [leadOf, toNat_append_eq, ofNat_append_toNat]

theorem leadOf_lead3 (p : BitVec 4) : leadOf (0b1110#4 ++ p).toNat = .u8Lead3 p := by
  grind [leadOf, toNat_append_eq, ofNat_append_toNat]

theorem leadOf_lead4 (p : BitVec 3) : leadOf (0b11110#5 ++ p).toNat = .u8Lead4 p := by
  grind [leadOf, toNat_append_eq, ofNat_append_toNat]

theorem leadOf_lead5 (p : BitVec 2) : leadOf (0b111110#6 ++ p).toNat = .u8Lead5 p := by
  grind [leadOf, toNat_append_eq, ofNat_append_toNat]

theorem leadOf_lead6 (p : BitVec 1) : leadOf (0b1111110#7 ++ p).toNat = .u8Lead6 p := by
  grind [leadOf, toNat_append_eq, ofNat_append_toNat]

theorem contOf_badCont0 (p : BitVec 7) : contOf (0b0#1 ++ p).toNat = .u8BadCont0 p := by
  grind [contOf, toNat_append_eq, ofNat_append_toNat]

theorem contOf_cont (p : BitVec 6) : contOf (0b10#2 ++ p).toNat = .u8Cont p := by
  grind [contOf, toNat_append_eq, ofNat_append_toNat]

theorem contOf_badCont3 (p : BitVec 6) : contOf (0b11#2 ++ p).toNat = .u8BadCont3 p := by
  grind [contOf, toNat_append_eq, ofNat_append_toNat]

section Types

variable (pad : BitVec 1) (r : Stream)

theorem decodeType_rsvd00001x (t : BitVec 1) : decodeType pad (0b00001#5 ++ t) r = .instr (.subRsvd00001x pad t) r := by
  have ht : (0b00001#5 ++ t).toNat = 2 + t.toNat := toNat_append_eq _ _
  rw [decodeType]
  repeat rw [if_neg (by omega)]
  rw [if_pos (by omega), BitVec.extractLsb'_append_eq_right]

theorem decodeType_rsvd0001xx (t : BitVec 2) : decodeType pad (0b0001#4 ++ t) r = .instr (.subRsvd0001xx pad t) r := by
  have ht : (0b0001#4 ++ t).toNat = 4 + t.toNat := toNat_append_eq _ _
  rw [decodeType]
  repeat rw [if_neg (by omega)]
  rw [if_pos (by omega), BitVec.extractLsb'_append_eq_right]

theorem decodeType_rsvd00111x (t : BitVec 1) : decodeType pad (0b00111#5 ++ t) r = .instr (.subRsvd00111x pad t) r := by
  have ht : (0b00111#5 ++ t).toNat = 14 + t.toNat := toNat_append_eq _ _
  rw [decodeType]
  repeat rw [if_neg (by omega)]
  rw [if_pos (by omega), BitVec.extractLsb'_append_eq_right]

theorem decodeType_rsvd01xxxx (t : BitVec 4) : decodeType pad (0b01#2 ++ t) r = .instr (.subRsvd01xxxx pad t) r := by
  have ht : (0b01#2 ++ t).toNat = 16 + t.toNat := toNat_append_eq _ _
  rw [decodeType]
  repeat rw [if_neg (by omega)]
  rw [if_pos (by omega), BitVec.extractLsb'_append_eq_right]

theorem decodeType_lpc (o : BitVec 5) :
    decodeType pad (1#1 ++ o) r = field 1 r fun v r1 => .instr (.subLpc pad o (BitVec.ofNat 1 v)) r1 := by
  have ho : (1#1 ++ o).toNat = 32 + o.toNat := toNat_append_eq _ _
  rw [decodeType]
  repeat rw [if_neg (by omega)]
  rw [BitVec.extractLsb'_append_eq_right]

end Types

/-! ### Formats over known bits -/

/-- The padding bit stops a header exactly where its row is not in the table (R223). -/
theorem strictPad_eq (strict : Bool) (pad : BitVec 1) :
    (strict && decide (pad.toNat ≠ 0)) = !(decide (pad = 0#1) || !strict) := by
  cases strict <;> simp [BitVec.toNat_eq]

section Rows

variable {c : Stream → Decoded} {rest : List Bool} {r : Stream} {strict : Bool}

theorem decodeU8_leaves {i : Instr} (b : BitVec 8) (hi : leadOf b.toNat = i) (h : r.upcoming = bvBits b ++ rest) :
    (decode strict .u8 r).Leaves (.instr i) rest :=
  field_leaves b h fun r1 h1 => ⟨r1, by rw [hi], h1⟩

theorem decodeCont_leaves {i : Instr} (b : BitVec 8) (hi : contOf b.toNat = i) (h : r.upcoming = bvBits b ++ rest) :
    (decode strict .u8cont r).Leaves (.instr i) rest :=
  field_leaves b h fun r1 h1 => ⟨r1, by rw [hi], h1⟩

/-- Padding bit and type code come first; the padding bit decides nothing where the row allows it (R223). -/
theorem decodeSfh_leaves {bits : List Bool} (pad : BitVec 1) (t : BitVec 6) (hp : (pad = 0#1 || !strict) = true)
    (h : r.upcoming = bvBits pad ++ bvBits t ++ bits)
    (hk : ∀ r1, r1.upcoming = bits → (decodeType pad t r1).Leaves c rest) : (decodeSfh strict r).Leaves c rest := by
  rw [List.append_assoc] at h
  refine field_leaves pad h fun r1 h1 => field_leaves t h1 fun r2 h2 => ?_
  rw [strictPad_eq, hp, if_neg (by decide), ofNat_toNat_self, ofNat_toNat_self]
  exact hk r2 h2

theorem decodeSfh_flag {row : BitVec 1 → Instr} (pad : BitVec 1) (t : BitVec 6) (f : BitVec 1)
    (hp : (pad = 0#1 || !strict) = true)
    (ht : ∀ r1, decodeType pad t r1 = field 1 r1 fun v r2 => .instr (row (BitVec.ofNat 1 v)) r2)
    (h : r.upcoming = sfhBits pad t f ++ rest) : (decodeSfh strict r).Leaves (.instr (row f)) rest :=
  decodeSfh_leaves pad t hp (h.trans (List.append_assoc _ _ _)) fun r1 h1 => ht r1 ▸ operand_leaves f h1

theorem decodeSfh_reserved {i : Instr} {hi low : List Bool} (pad : BitVec 1) {t : BitVec 6} (hb : bvBits t = hi ++ low)
    (hp : (pad = 0#1 || !strict) = true) (ht : ∀ r1, decodeType pad t r1 = .instr i r1)
    (h : r.upcoming = bvBits pad ++ hi ++ low ++ rest) : (decodeSfh strict r).Leaves (.instr i) rest := by
  rw [List.append_assoc (bvBits pad), ← hb] at h
  exact decodeSfh_leaves pad t hp h fun r1 h1 => ⟨r1, ht r1, h1⟩

theorem decodeSfh_badPad (t : BitVec 6) (h : r.upcoming = bvBits 1#1 ++ bvBits t ++ rest) :
    (decodeSfh true r).Leaves (.instr (.subBadPad t)) rest := by
  rw [List.append_assoc] at h
  exact field_leaves 1#1 h fun r1 h1 => operand_leaves (row := .subBadPad) t h1

/-- The fixed part with the sync bits and a first reserved bit of 0; a second one of 1 is refused (R101, R189). -/
theorem decodeFh_leaves (var : BitVec 1) (bsc rc ca : BitVec 4) (ssc : BitVec 3) (rsv2 : BitVec 1)
    (h : r.upcoming =
      bvBits 0x3FFE#14 ++ bvBits 0#1 ++ bvBits var ++ bvBits bsc ++ bvBits rc ++ bvBits ca ++ bvBits ssc ++
        bvBits rsv2 ++ rest) :
    (decodeFh r).Leaves
      (fun r' => if rsv2 = 0#1 then .instr (.frame var bsc rc ca ssc) r' else .illegal .badReserved r') rest := by
  simp only [List.append_assoc] at h
  refine field_leaves _ h fun r1 h => field_leaves _ h fun r2 h => field_leaves _ h fun r3 h =>
    field_leaves _ h fun r4 h => field_leaves _ h fun r5 h => field_leaves _ h fun r6 h => field_leaves _ h fun r7 h =>
    field_leaves _ h fun r8 h => ⟨r8, ?_, h⟩
  simp [BitVec.toNat_eq]

/-- The first bit of the 5-bit shift is its sign (R245, R246). -/
theorem decodeLph_leaves (prec : BitVec 4) (sign : BitVec 1) (s : BitVec 4) (hp : prec ≠ 15#4)
    (h : r.upcoming = bvBits prec ++ bvBits sign ++ bvBits s ++ rest) :
    (decodeLph r).Leaves (.instr (if sign = 0#1 then .lph prec s else .lphBadShift prec s)) rest := by
  rw [List.append_assoc, List.append_assoc, ← List.append_assoc (bvBits sign), ← bvBits_append] at h
  refine field_leaves prec h fun r1 h1 => ?_
  have hp' : prec.toNat ≠ 15 := fun he => hp (BitVec.eq_of_toNat_eq he)
  rw [if_neg hp']
  refine field_leaves (sign ++ s) h1 fun r2 h2 => ⟨r2, ?_, h2⟩
  rw [ofNat_append_toNat, ofNat_toNat_self]
  simp only [show (sign ++ s).toNat < 16 ↔ sign = 0#1 from toNat_append_lt_iff sign s]
  split <;> rfl

theorem decodeRes_badMethod (m : BitVec 1) (h : r.upcoming = bvBits 1#1 ++ bvBits m ++ rest) :
    (decodeRes r).Leaves (.instr (.resBadMethod m)) rest := by
  rw [← bvBits_append] at h
  refine field_leaves (1#1 ++ m) h fun r1 h1 => ⟨r1, ?_, h1⟩
  have hm : (1#1 ++ m).toNat = 2 + m.toNat := toNat_append_eq _ _
  rw [if_pos (by omega), ofNat_append_toNat]

theorem decodeRice_leaves {m q : Nat} {v : Word} (hm : m ≤ 30) (hv : v.toNat < 2 ^ m)
    (h : r.upcoming = unaryBits q ++ msbBits m v.toNat ++ rest) :
    (decodeRice m r).Leaves (.instr (.rice m q v)) rest := by
  rw [List.append_assoc] at h
  refine unaryField_leaves h fun r1 h1 => ?_
  by_cases h0 : m = 0
  · subst h0
    obtain rfl : v = 0 := BitVec.eq_of_toNat_eq (Nat.lt_one_iff.1 hv)
    exact ⟨r1, rfl, h1⟩
  · rw [if_neg h0]
    exact sizedField_leaves ⟨by omega, by omega⟩ h1 hv fun r2 h2 => ⟨r2, by simp, h2⟩

theorem sized_leaves {b : Nat} {v : Word} {row : Word → Instr} (hf : fieldFits b v = true)
    (h : r.upcoming = msbBits b v.toNat ++ rest) :
    (sizedField b r fun v r1 => .instr (row (BitVec.ofNat 64 v)) r1).Leaves (.instr (row v)) rest := by
  simp only [fieldFits, Bool.and_eq_true, decide_eq_true_eq] at hf
  exact sizedField_leaves hf.1 h hf.2 fun r1 h1 => ⟨r1, by simp, h1⟩

theorem decodePad_leaves {v : BitVec 7} (hv : v.toNat < 2 ^ r.brN)
    (h : r.upcoming = msbBits r.brN v.toNat ++ rest) :
    (decodePad r).Leaves (.instr (.padbits r.brN v)) rest := by
  obtain ⟨hcur, hrest⟩ := List.append_inj h (by simp)
  refine ⟨r.align, ?_, (upcoming_align r).trans hrest⟩
  rw [decodePad, msbBits_inj.1 hcur, Nat.mod_eq_of_lt hv, ofNat_toNat_self]

theorem pull_of_upcoming {b : Byte} (hn : r.brN = 0) (h : r.upcoming = bvBits b ++ rest) :
    ∃ r', r.pull = some (b, r') ∧ r'.brN = 0 ∧ r'.upcoming = rest := by
  cases hp : r.pull with
  | none =>
    rw [upcoming_of_aligned hn, pull_eq_none.1 hp] at h
    cases h
  | some p =>
    obtain ⟨b', r'⟩ := p
    obtain ⟨hn', hup⟩ := pull_upcoming hn hp
    obtain ⟨hb, hr⟩ := List.append_inj (hup.symm.trans h) (by simp)
    exact ⟨r', by rw [eq_of_bvBits_eq hb], hn', hr⟩

theorem decodeFt_leaves (b0 b1 : Byte) (hn : r.brN = 0) (h : r.upcoming = bvBits (b0 ++ b1) ++ rest) :
    (decodeFt r).Leaves (.instr (.foot (b0 ++ b1))) rest := by
  rw [bvBits_append, List.append_assoc] at h
  obtain ⟨r1, hp, hn1, h1⟩ := pull_of_upcoming hn h
  obtain ⟨r2, hp2, -, h2⟩ := pull_of_upcoming hn1 h1
  exact ⟨r2, by rw [decodeFt, hp]; dsimp only; rw [hp2], h2⟩

end Rows

/-- Over the encoding of a well-formed instruction its format's decoder gives it back and leaves what follows. -/
theorem decode_encode {strict : Bool} {i : Instr} {r : Stream} {rest : List Bool} (hw : i.wellFormed = true)
    (hp : i.padOk strict = true) (ha : i.alignedAt r = true) (h : r.upcoming = encode i ++ rest) :
    (decode strict i.format r).Leaves (.instr i) rest := by
  cases i with
  | next | reset => exact field_leaves _ h fun r1 h1 => ⟨r1, rfl, h1⟩
  | frame var bsc rc ca ssc => exact decodeFh_leaves var bsc rc ca ssc 0#1 h
  | ca0 | ca1 | ca2 | ca3 | ca4 | ca5 | ca6 | ca7 | ca8 | ca9 | ca10 | ca11 | ca12 | ca13 | ca14 | ca15 | ssc0 | ssc1
  | ssc2 | ssc3 | ssc4 | ssc5 | ssc6 | ssc7 | bsc0 | bsc1 | bsc2 | bsc3 | bsc4 | bsc5 | bsc8 | bsc9 | bsc10 | bsc11
  | bsc12 | bsc13 | bsc14 | bsc15 | rc0 | rc1 | rc2 | rc3 | rc4 | rc5 | rc6 | rc7 | rc8 | rc9 | rc10 | rc11 | rc15 =>
    exact field_leaves _ h fun r1 h1 => ⟨r1, rfl, h1⟩
  | bsc6 tail | bsc7 tail | rc12 tail | rc13 tail | rc14 tail =>
    exact field_leaves _ (h.trans (List.append_assoc _ _ _)) fun r1 h1 => operand_leaves tail h1
  | u8Lead1 p => exact decodeU8_leaves _ (leadOf_lead1 p) (bvBits_append _ p ▸ h)
  | u8Lead2 p => exact decodeU8_leaves _ (leadOf_lead2 p) (bvBits_append _ p ▸ h)
  | u8Lead3 p => exact decodeU8_leaves _ (leadOf_lead3 p) (bvBits_append _ p ▸ h)
  | u8Lead4 p => exact decodeU8_leaves _ (leadOf_lead4 p) (bvBits_append _ p ▸ h)
  | u8Lead5 p => exact decodeU8_leaves _ (leadOf_lead5 p) (bvBits_append _ p ▸ h)
  | u8Lead6 p => exact decodeU8_leaves _ (leadOf_lead6 p) (bvBits_append _ p ▸ h)
  | u8Lead7 | u8BadLead8 => exact decodeU8_leaves _ rfl h
  | u8BadLead1 p => exact decodeU8_leaves _ (leadOf_badLead1 p) (bvBits_append _ p ▸ h)
  | u8Cont p => exact decodeCont_leaves _ (contOf_cont p) (bvBits_append _ p ▸ h)
  | u8BadCont0 p => exact decodeCont_leaves _ (contOf_badCont0 p) (bvBits_append _ p ▸ h)
  | u8BadCont3 p => exact decodeCont_leaves _ (contOf_badCont3 p) (bvBits_append _ p ▸ h)
  | crc8 stored => exact operand_leaves stored h
  | subConstant pad f | subVerbatim pad f | subFixed0 pad f | subFixed1 pad f | subFixed2 pad f | subFixed3 pad f
  | subFixed4 pad f => exact decodeSfh_flag pad _ f hp (fun _ => rfl) h
  | subLpc pad o f => exact decodeSfh_flag pad _ f hp (decodeType_lpc pad · o) h
  | subRsvd00001x pad t => exact decodeSfh_reserved pad (bvBits_append _ t) hp (decodeType_rsvd00001x pad · t) h
  | subRsvd0001xx pad t => exact decodeSfh_reserved pad (bvBits_append _ t) hp (decodeType_rsvd0001xx pad · t) h
  | subRsvd001101 pad => exact decodeSfh_leaves pad _ hp h fun r1 h1 => ⟨r1, rfl, h1⟩
  | subRsvd00111x pad t => exact decodeSfh_reserved pad (bvBits_append _ t) hp (decodeType_rsvd00111x pad · t) h
  | subRsvd01xxxx pad t => exact decodeSfh_reserved pad (bvBits_append _ t) hp (decodeType_rsvd01xxxx pad · t) h
  | subBadPad t =>
    obtain rfl : strict = true := hp
    exact decodeSfh_badPad t h
  | wsuffix k => exact unaryField_leaves h fun r1 h1 => ⟨r1, rfl, h1⟩
  | smp b v => exact sized_leaves hw h
  | lph prec s => exact decodeLph_leaves prec 0#1 s (of_decide_eq_true hw) h
  | lphBadPrec => exact field_leaves 15#4 h fun r1 h1 => ⟨r1, rfl, h1⟩
  | lphBadShift prec s => exact decodeLph_leaves prec 1#1 s (of_decide_eq_true hw) h
  | coef b v => exact sized_leaves (Bool.and_eq_true_iff.1 hw).1 h
  | resRice4 p | resRice5 p =>
    exact field_leaves _ (h.trans (List.append_assoc _ _ _)) fun r1 h1 => operand_leaves p h1
  | resBadMethod m => exact decodeRes_badMethod m h
  | part4 m => exact param_leaves m (fun he => of_decide_eq_true hw (BitVec.eq_of_toNat_eq he)) h
  | part4Esc => exact field_leaves 15#4 h fun r1 h1 => ⟨r1, rfl, h1⟩
  | part5 m => exact param_leaves m (fun he => of_decide_eq_true hw (BitVec.eq_of_toNat_eq he)) h
  | part5Esc => exact field_leaves 31#5 h fun r1 h1 => ⟨r1, rfl, h1⟩
  | rice m q v =>
    obtain ⟨hm, hv⟩ := Bool.and_eq_true_iff.1 hw
    exact decodeRice_leaves (of_decide_eq_true hm) (of_decide_eq_true hv) h
  | padbits k v =>
    obtain rfl : r.brN = k := of_decide_eq_true ha
    exact decodePad_leaves (of_decide_eq_true (Bool.and_eq_true_iff.1 hw).2) h
  | foot stored =>
    obtain ⟨b0, b1, rfl⟩ := exists_append (m := 8) (n := 8) stored
    exact decodeFt_leaves b0 b1 (of_decide_eq_true ha) h

/-- A word whose bits, before the zero bytes, are an instruction's encoding decodes to it. -/
theorem decode_wordStream {strict : Bool} {i : Instr} {f : Format} {width w : Nat} (hf : i.format = f)
    (hw : i.wellFormed = true) (hp : i.padOk strict = true) (ha : i.alignedAt (wordStream width w blankStream) = true)
    (h : (wordStream width w blankStream).upcoming = encode i ++ List.replicate 128 false) :
    ∃ r, decode strict f (wordStream width w blankStream) = .instr i r := by
  subst hf
  obtain ⟨r, hd, -⟩ := decode_encode hw hp ha h
  exact ⟨r, hd⟩

end Sys2Proof
end

section
/-! PROOFS. What the decoder reads as an instruction is well formed, and the bits consumed are its encoding. -/

namespace Sys2Proof

open Sys2Proof.Machine

/-- If `d`, read from `r` after the bits `pre`, is an instruction, then it is well formed, of format `f`, and its encoding
is `pre` with the bits that `d` consumed. -/
def Decoded.Sound (strict : Bool) (f : Format) (pre : List Bool) (r : Stream) (d : Decoded) : Prop :=
  ∀ i r', d = .instr i r' →
    i.wellFormed = true ∧ i.padOk strict = true ∧ i.format = f ∧ pre ++ r.upcoming = encode i ++ r'.upcoming

section Sound

variable {strict : Bool} {f : Format} {pre : List Bool} {r : Stream} {k : Nat → Stream → Decoded} {i : Instr}

/-- An instruction whose encoding is the bits read so far. -/
theorem instr_sound (hf : i.format = f) (he : encode i = pre) (hw : i.wellFormed = true := by rfl)
    (hp : i.padOk strict = true := by rfl) : (Decoded.instr i r).Sound strict f pre r := by
  intro j r' h
  cases h
  exact ⟨hw, hp, hf, by rw [he]⟩

theorem field_sound {n : Nat} (hk : ∀ (v : BitVec n) r1, (k v.toNat r1).Sound strict f (pre ++ bvBits v) r1) :
    (field n r k).Sound strict f pre r := by
  unfold field
  split
  · next v r1 hr =>
    obtain ⟨hv, hup⟩ := read_ok hr
    intro i r' h
    obtain ⟨v, rfl⟩ : ∃ b : BitVec n, v = b.toNat := ⟨⟨v, hv⟩, rfl⟩
    rw [hup, ← List.append_assoc]
    exact hk v r1 i r' h
  · intro i r' h
    cases h

theorem sizedField_sound {n : Nat}
    (hk : 1 ≤ n → n ≤ 64 → ∀ (v : BitVec n) r1, (k v.toNat r1).Sound strict f (pre ++ bvBits v) r1) :
    (sizedField n r k).Sound strict f pre r := by
  unfold sizedField
  split
  · next h => exact field_sound (hk h.1 h.2)
  · intro i r' h
    cases h

theorem unaryField_sound (hk : ∀ q r1, (k q r1).Sound strict f (pre ++ unaryBits q) r1) :
    (unaryField r k).Sound strict f pre r := by
  unfold unaryField
  split
  · next q r1 hr =>
    intro i r' h
    rw [readUnary_ok hr, ← List.append_assoc]
    exact hk q r1 i r' h
  · intro i r' h
    cases h

theorem illegal_sound (e : ErrKind) : (Decoded.illegal e r).Sound strict f pre r := fun _ _ h => nomatch h

theorem ite_sound {c : Prop} [Decidable c] {d e : Decoded} (hd : c → d.Sound strict f pre r)
    (he : ¬c → e.Sound strict f pre r) : (if c then d else e).Sound strict f pre r := by
  by_cases h : c
  · rw [if_pos h]; exact hd h
  · rw [if_neg h]; exact he h

/-- The last field of an instruction. -/
theorem operand_sound {n : Nat} {row : BitVec n → Instr} (hf : ∀ v, (row v).format = f)
    (he : ∀ v, encode (row v) = pre ++ bvBits v) (hw : ∀ v, (row v).wellFormed = true := by intro; rfl)
    (hp : ∀ v, (row v).padOk strict = true := by intro; rfl) :
    (field n r fun v r1 => .instr (row (BitVec.ofNat n v)) r1).Sound strict f pre r :=
  field_sound fun v r1 => by
    rw [ofNat_toNat_self]
    exact instr_sound (hf v) (he v) (hw v) (hp v)

/-- A Rice parameter, or the escape code. -/
theorem param_sound {n e : Nat} {esc : Instr} {row : BitVec n → Instr}
    (hesc : ∀ m : BitVec n, m.toNat = e → ∀ r, (Decoded.instr esc r).Sound strict f (bvBits m) r)
    (hrow : ∀ m : BitVec n, m.toNat ≠ e → ∀ r, (Decoded.instr (row m) r).Sound strict f (bvBits m) r) :
    (field n r fun m r1 => .instr (if m = e then esc else row (BitVec.ofNat n m)) r1).Sound strict f [] r := by
  refine field_sound fun m r1 => ?_
  rw [ofNat_toNat_self]
  split
  · next h => exact hesc m h r1
  · next h => exact hrow m h r1

/-! ### Each format -/

theorem decodeCa_sound (code : BitVec 4) : (decodeCa code r).Sound strict .ca (bvBits code) r := by
  obtain ⟨n, hn, rfl⟩ := exists_ofNat code
  interval_cases n <;> exact instr_sound rfl rfl

theorem decodeSsc_sound (code : BitVec 3) : (decodeSsc code r).Sound strict .ssc (bvBits code) r := by
  obtain ⟨n, hn, rfl⟩ := exists_ofNat code
  interval_cases n <;> exact instr_sound rfl rfl

theorem decodeBsc_sound (code : BitVec 4) : (decodeBsc code r).Sound strict .bsc (bvBits code) r := by
  obtain ⟨n, hn, rfl⟩ := exists_ofNat code
  interval_cases n
  -- codes 7 and 6, which read a tail
  on_goal 8 => exact operand_sound (row := .bsc7) (fun _ => rfl) (fun _ => rfl)
  on_goal 7 => exact operand_sound (row := .bsc6) (fun _ => rfl) (fun _ => rfl)
  all_goals exact instr_sound rfl rfl

theorem decodeRc_sound (code : BitVec 4) : (decodeRc code r).Sound strict .rc (bvBits code) r := by
  obtain ⟨n, hn, rfl⟩ := exists_ofNat code
  interval_cases n
  -- codes 14, 13 and 12, which read a tail
  on_goal 15 => exact operand_sound (row := .rc14) (fun _ => rfl) (fun _ => rfl)
  on_goal 14 => exact operand_sound (row := .rc13) (fun _ => rfl) (fun _ => rfl)
  on_goal 13 => exact operand_sound (row := .rc12) (fun _ => rfl) (fun _ => rfl)
  all_goals exact instr_sound rfl rfl

theorem decodeCmd_sound : (decodeCmd r).Sound strict .cmd [] r := by
  refine field_sound fun v r1 => ?_
  obtain ⟨n, hn, rfl⟩ := exists_ofNat v
  interval_cases n
  · exact fun _ _ h => nomatch h
  · exact instr_sound rfl rfl
  · exact instr_sound rfl rfl
  · exact fun _ _ h => nomatch h

theorem decodeFh_sound : (decodeFh r).Sound strict .fh [] r := by
  refine field_sound fun sync r1 => ite_sound (fun _ => illegal_sound _) fun hsync => ?_
  refine field_sound fun rsv1 r2 => ite_sound (fun _ => illegal_sound _) fun hrsv1 => ?_
  refine field_sound fun var r3 => field_sound fun bsc r4 => field_sound fun rc r5 => field_sound fun ca r6 =>
    field_sound fun ssc r7 => field_sound fun rsv2 r8 => ite_sound (fun _ => illegal_sound _) fun hrsv2 => ?_
  obtain rfl : sync = 0x3FFE#14 := BitVec.eq_of_toNat_eq (not_not.1 hsync)
  obtain rfl : rsv1 = 0#1 := BitVec.eq_of_toNat_eq (not_not.1 hrsv1)
  obtain rfl : rsv2 = 0#1 := BitVec.eq_of_toNat_eq (not_not.1 hrsv2)
  simp only [ofNat_toNat_self]
  exact instr_sound rfl rfl

theorem leadOf_sound {b : Nat} (hb : b < 2 ^ 8) : (Decoded.instr (leadOf b) r).Sound strict .u8 (msbBits 8 b) r := by
  unfold leadOf
  split_ifs
  · exact instr_sound rfl (bvBits_pattern 1 0b0 (by omega))
  · exact instr_sound rfl (bvBits_pattern 2 0b10 (by omega))
  · exact instr_sound rfl (bvBits_pattern 3 0b110 (by omega))
  · exact instr_sound rfl (bvBits_pattern 4 0b1110 (by omega))
  · exact instr_sound rfl (bvBits_pattern 5 0b11110 (by omega))
  · exact instr_sound rfl (bvBits_pattern 6 0b111110 (by omega))
  · exact instr_sound rfl (bvBits_pattern 7 0b1111110 (by omega))
  · obtain rfl : b = 0xFE := by omega
    exact instr_sound rfl rfl
  · obtain rfl : b = 0xFF := by omega
    exact instr_sound rfl rfl

theorem contOf_sound {b : Nat} (hb : b < 2 ^ 8) :
    (Decoded.instr (contOf b) r).Sound strict .u8cont (msbBits 8 b) r := by
  unfold contOf
  split_ifs
  · exact instr_sound rfl (bvBits_pattern 1 0b0 (by omega))
  · exact instr_sound rfl (bvBits_pattern 2 0b10 (by omega))
  · exact instr_sound rfl (bvBits_pattern 2 0b11 (by omega))

/-- A type code's row that ends with `wflag`. -/
theorem flag_sound {row : BitVec 1 → Instr} {pad : BitVec 1} {t : BitVec 6} (code : BitVec 6) (ht : t = code)
    (hp : ∀ v, (row v).padOk strict = true) (hf : ∀ v, (row v).format = .sfh := by intro; rfl)
    (he : ∀ v, encode (row v) = sfhBits pad code v := by intro; rfl)
    (hw : ∀ v, (row v).wellFormed = true := by intro; rfl) :
    (field 1 r fun v r1 => .instr (row (BitVec.ofNat 1 v)) r1).Sound strict .sfh (bvBits pad ++ bvBits t) r :=
  ht ▸ operand_sound hf he hw hp

/-- A reserved row: the type codes whose first bits are `x`. -/
theorem reserved_sound {n : Nat} {row : BitVec n → Instr} {pad : BitVec 1} (m x : Nat) {t : BitVec (m + n)}
    (ht : t.toNat / 2 ^ n = x) (hp : ∀ v, (row v).padOk strict = true) (hf : ∀ v, (row v).format = .sfh := by intro; rfl)
    (he : ∀ v, encode (row v) = bvBits pad ++ bvBits (BitVec.ofNat m x) ++ bvBits v := by intro; rfl)
    (hw : ∀ v, (row v).wellFormed = true := by intro; rfl) :
    (Decoded.instr (row (t.extractLsb' 0 n)) r).Sound strict .sfh (bvBits pad ++ bvBits t) r :=
  instr_sound (hf _) (by rw [he, List.append_assoc, ← bvBits_append, ofNat_append_extractLsb' m x ht]) (hw _) (hp _)

theorem decodeType_sound {pad : BitVec 1} {t : BitVec 6} (hp : (pad = 0#1 || !strict) = true) :
    (decodeType pad t r).Sound strict .sfh (bvBits pad ++ bvBits t) r := by
  have code {n : Nat} (h : t.toNat = n) : t = BitVec.ofNat 6 n := by rw [← h, ofNat_toNat_self]
  refine ite_sound (fun h => ?constant) fun h0 => ite_sound (fun h => ?verbatim) fun h1 =>
    ite_sound (fun h => ?rsvd2) fun h2 => ite_sound (fun h => ?rsvd4) fun h3 => ite_sound (fun h => ?fixed0) fun h4 =>
    ite_sound (fun h => ?fixed1) fun h5 => ite_sound (fun h => ?fixed2) fun h6 => ite_sound (fun h => ?fixed3) fun h7 =>
    ite_sound (fun h => ?fixed4) fun h8 => ite_sound (fun h => ?rsvd13) fun h9 => ite_sound (fun h => ?rsvd14) fun h10 =>
    ite_sound (fun h => ?rsvd16) fun h11 => ?lpc
  case constant | verbatim | fixed0 | fixed1 | fixed2 | fixed3 | fixed4 => exact flag_sound _ (code h) fun _ => hp
  case rsvd2 => exact reserved_sound 5 0b00001 (by omega) fun _ => hp
  case rsvd4 => exact reserved_sound 4 0b0001 (by omega) fun _ => hp
  case rsvd13 => exact instr_sound rfl (by rw [code h]; rfl) rfl hp
  case rsvd14 => exact reserved_sound 5 0b00111 (by omega) fun _ => hp
  case rsvd16 => exact reserved_sound 2 0b01 (by omega) fun _ => hp
  case lpc =>
    have ht : 1#1 ++ t.extractLsb' 0 5 = t := ofNat_append_extractLsb' 1 1 (by omega)
    exact flag_sound _ ht.symm fun _ => hp

theorem decodeSfh_sound : (decodeSfh strict r).Sound strict .sfh [] r := by
  refine field_sound fun pad r1 => field_sound fun t r2 => ?_
  rw [strictPad_eq, ofNat_toNat_self, ofNat_toNat_self]
  refine ite_sound (fun h => ?_) fun h => decodeType_sound (by rwa [Bool.not_eq_true', Bool.not_eq_false] at h)
  obtain ⟨h0, hs⟩ := Bool.or_eq_false_iff.1 (Bool.not_eq_true' _ ▸ h)
  obtain rfl : pad = 1#1 := pad.eq_zero_or_eq_one.resolve_left (of_decide_eq_false h0)
  exact instr_sound rfl rfl rfl (Bool.not_eq_false' _ ▸ hs)

theorem decodeLph_sound : (decodeLph r).Sound strict .lph [] r := by
  refine field_sound fun prec r1 => ite_sound (fun h => ?_) fun h => field_sound fun s r2 => ?_
  · obtain rfl : prec = 15#4 := BitVec.eq_of_toNat_eq h
    exact instr_sound rfl rfl
  have hprec : decide (prec ≠ 15#4) = true := decide_eq_true fun he => h (congrArg BitVec.toNat he)
  obtain ⟨sign, s, rfl⟩ := exists_append (m := 1) (n := 4) s
  rw [ofNat_toNat_self, ofNat_append_toNat, bvBits_append, ← List.append_assoc]
  refine ite_sound (fun hs => ?_) fun hs => ?_
  · obtain rfl : sign = 0#1 := (toNat_append_lt_iff sign s).1 hs
    exact instr_sound rfl rfl hprec
  · have hne : sign ≠ 0#1 := fun h0 => hs ((toNat_append_lt_iff sign s).2 h0)
    obtain rfl : sign = 1#1 := sign.eq_zero_or_eq_one.resolve_left hne
    exact instr_sound rfl rfl hprec

theorem decodeRes_sound : (decodeRes r).Sound strict .res [] r := by
  refine field_sound fun method r1 => ite_sound (fun h => ?_) fun h => field_sound fun p r2 => ?_
  · obtain ⟨hi, low, rfl⟩ := exists_append (m := 1) (n := 1) method
    have hne : hi ≠ 0#1 := fun h0 => absurd ((toNat_append_lt_iff hi low).2 h0) (by omega)
    obtain rfl : hi = 1#1 := hi.eq_zero_or_eq_one.resolve_left hne
    rw [ofNat_append_toNat, bvBits_append]
    exact instr_sound rfl rfl
  · rw [ofNat_toNat_self]
    refine ite_sound (fun h0 => ?_) fun h0 => ?_
    · obtain rfl : method = 0#2 := BitVec.eq_of_toNat_eq h0
      exact instr_sound rfl rfl
    · obtain rfl : method = 1#2 := BitVec.eq_of_toNat_eq (show method.toNat = 1 by omega)
      exact instr_sound rfl rfl

theorem decodePart4_sound : (decodePart4 r).Sound strict .part4 [] r := by
  refine param_sound (fun m h r1 => ?_) fun m h r1 => ?_
  · obtain rfl : m = 15#4 := BitVec.eq_of_toNat_eq h
    exact instr_sound rfl rfl
  · exact instr_sound rfl rfl (decide_eq_true fun he => h (congrArg BitVec.toNat he))

theorem decodePart5_sound : (decodePart5 r).Sound strict .part5 [] r := by
  refine param_sound (fun m h r1 => ?_) fun m h r1 => ?_
  · obtain rfl : m = 31#5 := BitVec.eq_of_toNat_eq h
    exact instr_sound rfl rfl
  · exact instr_sound rfl rfl (decide_eq_true fun he => h (congrArg BitVec.toNat he))

theorem decodeRice_sound {m : Nat} (hm : m ≤ 30) : (decodeRice m r).Sound strict (.rice m) [] r := by
  refine unaryField_sound fun q r1 => ite_sound (fun h => ?_) fun h => sizedField_sound fun _ h64 v r2 => ?_
  · subst h
    exact instr_sound rfl (by simp [encode, msbBits])
  · refine instr_sound rfl ?_ ?_
    · rw [encode, toNat_ofNat_toNat h64]; rfl
    · rw [Instr.wellFormed, toNat_ofNat_toNat h64]
      simp [hm, v.isLt]

theorem sized_sound {b : Nat} {row : Word → Instr} (hf : ∀ v, (row v).format = f)
    (he : ∀ v : Word, encode (row v) = msbBits b v.toNat) (hw : ∀ v, fieldFits b v = true → (row v).wellFormed = true)
    (hp : ∀ v, (row v).padOk strict = true) :
    (sizedField b r fun v r1 => .instr (row (BitVec.ofNat 64 v)) r1).Sound strict f [] r := by
  refine sizedField_sound fun h1 h64 v r1 => instr_sound (hf _) ?_ (hw _ ?_) (hp _)
  · rw [he, toNat_ofNat_toNat h64]; rfl
  · rw [fieldFits, toNat_ofNat_toNat h64]
    simp [h1, h64, v.isLt]

theorem decodePad_sound (hn : r.brN ≤ 7) : (decodePad r).Sound strict .pad [] r := by
  intro i r' h
  cases h
  have hlt : r.brCur.toNat % 2 ^ r.brN < 2 ^ r.brN := Nat.mod_lt _ (Nat.two_pow_pos _)
  have hv : (BitVec.ofNat 7 (r.brCur.toNat % 2 ^ r.brN)).toNat = r.brCur.toNat % 2 ^ r.brN :=
    (BitVec.toNat_ofNat _ _).trans (Nat.mod_eq_of_lt (hlt.trans_le (Nat.pow_le_pow_right (by decide) hn)))
  refine ⟨?_, rfl, rfl, ?_⟩
  · rw [Instr.wellFormed, hv]
    simp [hn, hlt]
  · rw [upcoming_align, encode, hv, msbBits_mod]
    rfl

theorem decodeFt_sound (hn : r.brN = 0) : (decodeFt r).Sound strict .ft [] r := by
  unfold decodeFt
  split
  · exact fun _ _ h => nomatch h
  · next b0 r1 h1 =>
    obtain ⟨hn1, hup1⟩ := pull_upcoming hn h1
    split
    · exact fun _ _ h => nomatch h
    · next b1 r2 h2 =>
      intro i r' h
      cases h
      refine ⟨rfl, rfl, rfl, ?_⟩
      rw [List.nil_append, hup1, (pull_upcoming hn1 h2).2, encode, bvBits_append, List.append_assoc]

/-- What a format's decoder reads as an instruction is of that format, well formed, and the bits consumed are its
encoding. -/
theorem decode_sound (hn : r.brN ≤ 7) (hft : f = .ft → r.brN = 0) (hrice : ∀ m, f = .rice m → m ≤ 30)
    (hcoef : ∀ b, f = .coef b → b ≤ 15) : (decode strict f r).Sound strict f [] r := by
  cases f with
  | cmd => exact decodeCmd_sound
  | fh => exact decodeFh_sound
  | ca => exact field_sound fun v r1 => by simpa using decodeCa_sound v
  | ssc => exact field_sound fun v r1 => by simpa using decodeSsc_sound v
  | bsc => exact field_sound fun v r1 => by simpa using decodeBsc_sound v
  | rc => exact field_sound fun v r1 => by simpa using decodeRc_sound v
  | u8 => exact field_sound fun v r1 => leadOf_sound v.isLt
  | u8cont => exact field_sound fun v r1 => contOf_sound v.isLt
  | crc8 => exact operand_sound (fun _ => rfl) (fun _ => rfl)
  | sfh => exact decodeSfh_sound
  | wsuffix => exact unaryField_sound fun q r1 => instr_sound rfl rfl
  | smp b => exact sized_sound (fun _ => rfl) (fun _ => rfl) (fun _ h => h) fun _ => rfl
  | lph => exact decodeLph_sound
  | coef b =>
    refine sized_sound (fun _ => rfl) (fun _ => rfl) (fun _ h => ?_) fun _ => rfl
    exact Bool.and_eq_true_iff.2 ⟨h, decide_eq_true (hcoef b rfl)⟩
  | res => exact decodeRes_sound
  | part4 => exact decodePart4_sound
  | part5 => exact decodePart5_sound
  | rice m => exact decodeRice_sound (hrice m rfl)
  | pad => exact decodePad_sound hn
  | ft => exact decodeFt_sound (hft rfl)

end Sound

end Sys2Proof
end

section
/-! PROOFS. A header's fixed part as one step over four bytes, subframe headers, samples, and the rows of the header codes. -/

namespace Sys2Proof.Machine

/-! ### The fixed part of a header over four bytes -/

/-- The fields of R101 in a word of 32 bits, the sync bits and the first reserved bit together. -/
theorem bvBits_fixedPart (w : BitVec 32) :
    bvBits w =
      bvBits (w.extractLsb' 17 15) ++ bvBits (w.extractLsb' 16 1) ++ bvBits (w.extractLsb' 12 4) ++
        bvBits (w.extractLsb' 8 4) ++ bvBits (w.extractLsb' 4 4) ++ bvBits (w.extractLsb' 1 3) ++
        bvBits (w.extractLsb' 0 1) := by
  have split (m n : Nat) := msbBits_append m n w.toNat
  simp only [bvBits_extractLsb', List.append_assoc, pow_zero, Nat.div_one]
  rw [bvBits, split 15 17, split 1 16, split 4 12, split 4 8, split 4 4, split 3 1]

/-- An element that ends where whole bytes end has pulled just the bytes before. -/
theorem pulled_of_wholeBytes {r r' : Stream} {d : Decoded} {ps rest : List Byte} (hn : r.brN = 0) (hc : d.Consumes r)
    (hd : d.rest r = r') (hb : r.bytes = ps ++ rest) (hup : r'.upcoming = rest.flatMap bvBits) :
    Pulled ps r r' ∧ r'.brN = 0 := by
  obtain ⟨qs, hp, hn'⟩ := rest_pulled (hn ▸ Nat.zero_le 7) hc
  rw [hd] at hp hn'
  have hlen : r'.brN + 8 * r'.bytes.length = 8 * rest.length := by
    rw [← Stream.bitsLeft, bitsLeft_eq, hup]
    exact length_flatMap_msbBits rest
  obtain ⟨rfl, -⟩ := List.append_inj' (hb.symm.trans hp.1) (by omega)
  exact ⟨hp, by omega⟩

theorem openElement_withStream (s : State) (r : Stream) : s.openElement.withStream r = s.withStream r := by
  unfold State.openElement
  split <;> rfl

theorem fetch_openElement_frame {s : State} (h : s.seq.pos = .frame) :
    s.openElement.fetch = decodeFh (Claims.opened s.stream) := by
  have ho : s.openElement = { s with dp := { s.dp with crc8 := 0, crc16 := 0, tee8 := true, tee16 := true } } := by
    rw [State.openElement, h]
  rw [ho, State.fetch, h]
  rfl

theorem stepElement_instr {s : State} {i : Instr} {r : Stream} (hs : s.sourceFits = true)
    (hf : s.openElement.fetch = .instr i r) : stepElement s = exec i (s.withStream r) := by
  rw [stepElement, if_pos hs]
  dsimp only
  rw [hf]
  dsimp only
  rw [openElement_withStream]

theorem stepElement_illegal {s : State} {k : ErrKind} {r : Stream} (hs : s.sourceFits = true)
    (hf : s.openElement.fetch = .illegal k r) : stepElement s = .next ((s.withStream r).raise k 0) := by
  rw [stepElement, if_pos hs]
  dsimp only
  rw [hf]
  dsimp only
  rw [openElement_withStream]

/-- Four bytes with the sync bits and a first reserved bit of 0 are a fixed part, or, with a second reserved bit of 1,
BadReserved (R101, R189). -/
theorem decodeFh_fourBytes {r : Stream} {b0 b1 b2 b3 : Byte} {rest : List Byte} {w : BitVec 32} (hn : r.brN = 0)
    (hb : r.bytes = [b0, b1, b2, b3] ++ rest) (hw : w = b0 ++ b1 ++ b2 ++ b3) (hs : w.extractLsb' 17 15 = 0x7FFC) :
    ∃ r', Pulled [b0, b1, b2, b3] r r' ∧ r'.brN = 0 ∧
      decodeFh r =
        if w.getLsbD 0 then .illegal .badReserved r'
        else
          .instr (.frame (w.extractLsb' 16 1) (w.extractLsb' 12 4) (w.extractLsb' 8 4) (w.extractLsb' 4 4)
            (w.extractLsb' 1 3)) r' := by
  have hup : r.upcoming = bvBits w ++ rest.flatMap bvBits := by
    rw [upcoming_of_aligned hn, hb, hw, bvBits_append, bvBits_append, bvBits_append, List.flatMap_append]
    rfl
  have hsync : bvBits (0x7FFC : BitVec 15) = bvBits 0x3FFE#14 ++ bvBits 0#1 := rfl
  rw [bvBits_fixedPart, hs, hsync] at hup
  obtain ⟨r', hd, hr'⟩ := decodeFh_leaves _ _ _ _ _ _ hup
  have hrest : (decodeFh r).rest r = r' := by
    rw [hd]
    split <;> rfl
  obtain ⟨hp, hn'⟩ := pulled_of_wholeBytes hn (decodeFh_consumes r (hn ▸ Nat.zero_le 7)) hrest hb hr'
  refine ⟨r', hp, hn', ?_⟩
  rw [hd, extractLsb'_zero_one]
  cases w.getLsbD 0 <;> rfl

/-! ### Subframe headers -/

theorem side_eq_sideBit (ca : BitVec 4) (c : Nat) : Claims.side ca c = (sideBit ca c : Int) := by
  have hiff : (ca.toNat, c) ∈ [(8, 1), (9, 0), (10, 1)] ↔ (ca = 8 ∧ c = 1) ∨ (ca = 9 ∧ c = 0) ∨ (ca = 10 ∧ c = 1) := by
    simp [BitVec.toNat_eq]
  unfold Claims.side sideBit
  simp only [hiff]
  split <;> rfl

/-- With a sample in the block a body starts at its first element (R304): the residual section for FIXED of order 0. -/
theorem startBody_of_samples {s : State} (hb : 0 < s.hdr.bs.toNat) :
    s.startBody =
      { s with
        seq :=
          { s.seq with pos := if s.cur.kind = .fixed ∧ s.order = 0 then .res else .smp, idx := 0, x := [] } } := by
  have hbs : s.hdr.bs ≠ 0#17 := fun h => by simp [h] at hb
  cases hk : s.cur.kind <;> simp [State.startBody, State.gotoIdx, hk, hbs]

/-- A complete header is what R230 to R233 say. -/
theorem acceptHeader_eq_headerRead {s : State} (hc : s.seq.ch < 8) (hb : 0 < s.hdr.bs.toNat) (kind : SubKind)
    (order : BitVec 6) (w : Nat) : s.acceptHeader kind order w = Claims.headerRead s kind order.toNat w := by
  rw [State.acceptHeader, Claims.headerRead, sampleWidth, side_eq_sideBit, ofNat_toNat_self]
  congr 1
  have hcur := sub_setIfInBounds (s := s) hc { kind := kind, order := order, wasted := BitVec.ofNat 6 w }
  rw [startBody_of_samples, State.order, State.cur, hcur]
  exact hb

theorem subframeHeader_kind {s : State} {pad wflag : BitVec 1} {t : BitVec 6} {kind : SubKind} {p : BitVec 6}
    (hp : pad = 0#1 ∨ s.params.padStrict = false) (ht : typeOf t = some (kind, p)) :
    s.subframeHeader pad t wflag =
      if wflag = 0#1 then s.acceptHeader kind p 0
      else { s with seq := { s.seq with kind := kind, order := p, pos := .wsuffix } } := by
  have hn : ¬(pad = 1 ∧ s.params.padStrict = true) := by
    obtain rfl | hp := hp <;> simp [*]
  rw [State.subframeHeader, if_neg hn, ht]
  rfl

theorem subframeHeader_reserved (s : State) (pad wflag : BitVec 1) {t : BitVec 6} (ht : typeOf t = none) :
    s.subframeHeader pad t wflag = s.raise .badSubframeType 0 := by
  rw [State.subframeHeader, ht]
  exact ite_self _

theorem subframeHeader_strictPad {s : State} (hs : s.params.padStrict = true) (t : BitVec 6) (wflag : BitVec 1) :
    s.subframeHeader 1#1 t wflag = s.raise .badSubframeType 0 := if_pos ⟨rfl, hs⟩

-- The type codes of R109 that no kind has, and those of LPC: each pattern over its few low bits.
theorem typeOf_rsvd00001x : ∀ t : BitVec 1, typeOf (0b00001#5 ++ t) = none := by decide

theorem typeOf_rsvd0001xx : ∀ t : BitVec 2, typeOf (0b0001#4 ++ t) = none := by decide

theorem typeOf_rsvd00111x : ∀ t : BitVec 1, typeOf (0b00111#5 ++ t) = none := by decide

theorem typeOf_rsvd01xxxx : ∀ t : BitVec 4, typeOf (0b01#2 ++ t) = none := by decide

theorem typeOf_lpc : ∀ o : BitVec 5, typeOf (1#1 ++ o) = some (.lpc, BitVec.ofNat 6 (o.toNat + 1)) := by decide

/-! ### Samples -/

theorem sample_warmup {s : State} (hk : s.cur.kind = .fixed ∨ s.cur.kind = .lpc) (v : Word) :
    s.sample v =
      { s with
        files := { s.files with w := s.files.w.setIfInBounds s.seq.idx v }
        seq :=
          { s.seq with
            idx := if s.seq.idx + 1 < s.order then s.seq.idx + 1 else 0
            pos := if s.seq.idx + 1 < s.order then .smp else if s.cur.kind = .fixed then .res else .lph } } := by
  obtain hk | hk := hk <;> by_cases hi : s.seq.idx + 1 < s.order <;> simp [State.sample, State.gotoIdx, hk, hi]

theorem sample_verbatim {s : State} (hk : s.cur.kind = .verbatim) (hi : s.seq.idx + 1 < s.hdr.bs.toNat) (v : Word) :
    s.sample v = { s with seq := { s.seq with x := s.seq.x ++ [v], idx := s.seq.idx + 1, pos := .smp } } := by
  rw [State.sample, hk]
  exact if_pos hi

end Sys2Proof.Machine

namespace Sys2Proof.Proofs

open Sys2Proof.Machine Sys2Proof.Claims

/-- Settles O1: each format's decoder is run over the bits of each of its rows. -/
theorem decodeOfEncode : Obligations.DecodeOfEncode := by
  unfold Obligations.DecodeOfEncode
  intro strict i r rest hw hp ha h
  exact decode_encode hw hp ha h

/-- Settles O2: along each path of a decoder the bits read so far are the encoding of the row the path ends in. -/
theorem encodeOfDecode : Obligations.EncodeOfDecode := by
  unfold Obligations.EncodeOfDecode
  intro strict f i r r' hn hft hrice hcoef h
  exact decode_sound hn hft hrice hcoef i r' h

/-- Settles O3: each word's bits are the encoding of its instruction, before the zero bytes. -/
theorem decodesTheSpecsWords : Obligations.DecodesTheSpecsWords := by
  unfold Obligations.DecodesTheSpecsWords
  refine ⟨decode_wordStream rfl rfl rfl rfl ?_, decode_wordStream rfl rfl rfl rfl ?_,
    decode_wordStream rfl rfl rfl rfl ?_, decode_wordStream rfl rfl rfl rfl ?_, decode_wordStream rfl rfl rfl rfl ?_,
    decode_wordStream rfl rfl rfl rfl ?_, decode_wordStream rfl rfl rfl rfl ?_, decode_wordStream rfl rfl rfl rfl ?_,
    decode_wordStream rfl rfl rfl rfl ?_, decode_wordStream rfl rfl rfl rfl ?_, decode_wordStream rfl rfl rfl rfl ?_⟩ <;>
    decide

/-- Settles O18: the four bytes are the fields of R101, and the decoder that takes just these bits has pulled just these
bytes. -/
theorem fixedPartRows : Obligations.FixedPartRows := by
  unfold Obligations.FixedPartRows
  refine ⟨fun _ _ _ _ _ _ => rfl, ?_⟩
  rintro s b0 b1 b2 b3 rest ⟨hb, hh, hpos, hfits⟩ hn hbytes w hs
  obtain ⟨r, hp, hr, hd⟩ := decodeFh_fourBytes (r := opened s.stream) hn hbytes rfl hs
  refine ⟨r, hp, hr, ?_⟩
  rw [← fetch_openElement_frame hpos] at hd
  rw [step_element hh hb]
  split at hd
  · next hrsv2 =>
    rw [if_pos hrsv2, stepElement_illegal hfits hd]
    rfl
  · next hrsv2 =>
    rw [if_neg hrsv2, stepElement_instr hfits hd]
    rfl

/-- Settles O28: `decode_type` gives each row its kind and order, and acceptance is R230 to R233. -/
theorem subframeHeaderRows : Obligations.SubframeHeaderRows := by
  unfold Obligations.SubframeHeaderRows
  intro s o pad wflag hp hc hb e he
  have row : ∀ {t : BitVec 6} {kind : SubKind} {p : Nat}, p < 64 → typeOf t = some (kind, BitVec.ofNat 6 p) →
      s.subframeHeader pad t wflag =
        if wflag = 0#1 then headerRead s kind p 0
        else { s with seq := { s.seq with kind := kind, order := BitVec.ofNat 6 p, pos := .wsuffix } } := by
    intro t kind p hlt ht
    rw [subframeHeader_kind hp ht, acceptHeader_eq_headerRead hc hb, BitVec.toNat_ofNat, Nat.mod_eq_of_lt hlt]
  simp only [subframeRows, List.mem_cons, List.not_mem_nil, or_false] at he
  obtain rfl | rfl | rfl | rfl | rfl | rfl | rfl | rfl := he
  on_goal 8 => exact congrArg _ (row (by omega) (typeOf_lpc o))
  all_goals exact congrArg _ (row (by decide) rfl)

/-- Settles O29: the padding bit is looked at before the type code, and `decode_type` has nothing for a reserved one. -/
theorem subframeHeaderFaults : Obligations.SubframeHeaderFaults := by
  unfold Obligations.SubframeHeaderFaults
  refine fun s o pad wflag => ⟨fun hp hs e he => ?_, fun a b c i hi => ?_, fun _ => rfl⟩
  · subst hp
    simp only [subframeRows, List.mem_cons, List.not_mem_nil, or_false] at he
    obtain rfl | rfl | rfl | rfl | rfl | rfl | rfl | rfl := he <;>
      exact congrArg _ (subframeHeader_strictPad hs _ _)
  · simp only [reservedRows, List.mem_cons, List.not_mem_nil, or_false] at hi
    obtain rfl | rfl | rfl | rfl | rfl := hi
    · exact congrArg _ (subframeHeader_reserved s pad 0 (typeOf_rsvd00001x a))
    · exact congrArg _ (subframeHeader_reserved s pad 0 (typeOf_rsvd0001xx b))
    · exact congrArg _ (subframeHeader_reserved s pad 0 rfl)
    · exact congrArg _ (subframeHeader_reserved s pad 0 (typeOf_rsvd00111x a))
    · exact congrArg _ (subframeHeader_reserved s pad 0 (typeOf_rsvd01xxxx c))

/-- Settles O20: each row writes its size or raises. -/
theorem sampleSizeRows : Obligations.SampleSizeRows := by
  unfold Obligations.SampleSizeRows
  exact fun s => ⟨rfl, rfl, rfl, rfl, rfl, rfl, rfl, rfl⟩

/-- Settles O21: each row's payload, widened, starts the number. -/
theorem utf8LeadRows : Obligations.Utf8LeadRows := by
  unfold Obligations.Utf8LeadRows
  intro s
  simp only [BitVec.ofNat_toNat]
  exact ⟨fun _ => rfl, fun _ => rfl, fun _ => rfl, fun _ => rfl, fun _ => rfl, fun _ => rfl, rfl, fun _ => rfl, rfl⟩

/-- Settles O23: each table entry, and each tail widened to 17 bits. -/
theorem blockSizeRows : Obligations.BlockSizeRows := by
  unfold Obligations.BlockSizeRows
  intro s
  refine ⟨rfl, fun e he => ?table, fun tail => ?tail8, fun tail => ?tail16⟩
  case table =>
    simp only [blockRows, List.mem_cons, List.not_mem_nil, or_false] at he
    rcases he with rfl | rfl | rfl | rfl | rfl | rfl | rfl | rfl | rfl | rfl | rfl | rfl | rfl <;> rfl
  case tail8 | tail16 =>
    rw [withBlock, BitVec.ofNat_add, BitVec.ofNat_toNat]
    rfl

/-- Settles O24: each table entry, and each tail widened and scaled in 20 bits. -/
theorem sampleRateRows : Obligations.SampleRateRows := by
  unfold Obligations.SampleRateRows
  intro s
  refine ⟨?config, fun e he => ?table, fun tail => ?khz, fun tail => ?hz, fun tail => ?tens, rfl⟩
  case config =>
    rw [withRate, ofNat_toNat_self]
    rfl
  case table =>
    simp only [rateRows, List.mem_cons, List.not_mem_nil, or_false] at he
    rcases he with rfl | rfl | rfl | rfl | rfl | rfl | rfl | rfl | rfl | rfl | rfl <;> rfl
  case khz | tens =>
    rw [withRate, BitVec.ofNat_mul, BitVec.ofNat_toNat]
    rfl
  case hz =>
    rw [withRate, BitVec.ofNat_toNat]
    rfl

/-- Settles O31: `State.sample` by kind and by whether samples remain. -/
theorem sampleRows : Obligations.SampleRows := by
  unfold Obligations.SampleRows
  exact fun s b v => ⟨fun hk => congrArg _ (sample_warmup hk _), fun hk hi => congrArg _ (sample_verbatim hk hi _)⟩

end Sys2Proof.Proofs
end

section
/-! PROOFS. What a read takes from the stream: its value, the bytes it pulls, where it leaves the cursor, and how reads
join. -/

namespace Sys2Proof.Machine

/-! ### The bits left and the bytes pulled -/

/-- No bit is left exactly at the end of the last byte. -/
theorem upcoming_eq_nil {r : Stream} : r.upcoming = [] ↔ r.brN = 0 ∧ r.bytes = [] := by
  rw [← List.length_eq_zero_iff, ← bitsLeft_eq, Stream.bitsLeft, ← List.length_eq_zero_iff]
  omega

/-- The bytes that taking `n` bits from `r` pulls: as many as hold the bits that are not at hand (R141). -/
def Stream.needed (r : Stream) (n : Nat) : List Byte := r.bytes.take ((n - r.brN + 7) / 8)

/-- How many bits were taken fixes which bytes were pulled and how many bits are unread. -/
theorem needed_of_pulled {ps : List Byte} {r r' : Stream} {n : Nat} (hn : r.brN ≤ 7) (hn' : r'.brN ≤ 7)
    (hp : Pulled ps r r') (hbits : r.upcoming.length = n + r'.upcoming.length) :
    ps = r.needed n ∧ r'.brN + n = r.brN + 8 * ((n - r.brN + 7) / 8) ∧ ps.length = (n - r.brN + 7) / 8 := by
  have hb : r.bytes = ps ++ r'.bytes := hp.1
  have hcount : r'.brN + n = r.brN + 8 * ps.length := by
    have hlen := congrArg List.length hb
    rw [← bitsLeft_eq, ← bitsLeft_eq, Stream.bitsLeft, Stream.bitsLeft] at hbits
    rw [List.length_append] at hlen
    omega
  have hk : ps.length = (n - r.brN + 7) / 8 := by omega
  exact ⟨by rw [Stream.needed, hb, ← hk, List.take_left], hk ▸ hcount, hk⟩

/-- A read that succeeds has pulled just the bytes that its bits need (R141). -/
theorem read_needed {n w : Nat} {r r' : Stream} (hn : r.brN ≤ 7) (h : r.read n = .ok w r') :
    r'.brN ≤ 7 ∧ Pulled (r.needed n) r r' ∧ r'.brN + n = r.brN + 8 * ((n - r.brN + 7) / 8) ∧
      (r.needed n).length = (n - r.brN + 7) / 8 := by
  obtain ⟨ps, hp, hn'⟩ := read_pulled n r hn
  rw [h] at hp hn'
  have hbits : r.upcoming.length = n + r'.upcoming.length := by
    rw [(read_ok h).2, List.length_append, length_msbBits]
  obtain ⟨rfl, hcount, hlen⟩ := needed_of_pulled hn hn' hp hbits
  exact ⟨hn', hp, hcount, hlen⟩

/-- A read of no more bits than the stream holds succeeds. -/
theorem exists_read_ok {r : Stream} {n : Nat} (h : n ≤ r.bitsLeft) : ∃ w r', r.read n = .ok w r' := by
  rw [bitsLeft_eq] at h
  obtain ⟨r', hr, -⟩ := read_of_upcoming (List.length_take_of_le h) (List.take_append_drop n r.upcoming).symm
  exact ⟨_, r', hr⟩

/-- A read of more bits than the stream holds stops with none left (R142). -/
theorem exists_read_stop {r : Stream} {n : Nat} (h : r.bitsLeft < n) :
    ∃ r', r.read n = .stop r' ∧ r'.upcoming = [] := by
  cases hr : r.read n with
  | stop r' => exact ⟨r', rfl, (readLoop_stop hr).2.1⟩
  | ok w r' =>
    have hlen := congrArg List.length (read_ok hr).2
    rw [List.length_append, length_msbBits, ← bitsLeft_eq] at hlen
    omega

/-- Bits of the current byte are read without a pull. -/
theorem readLoop_at_hand {n : Nat} {r : Stream} (v : Nat) (h : n ≤ r.brN) :
    ∃ w, r.readLoop n v = .ok w { r with brN := r.brN - n } := by
  induction n generalizing r v with
  | zero => exact ⟨v, rfl⟩
  | succ n ih =>
    obtain ⟨k, hk⟩ : ∃ k, r.brN = k + 1 := ⟨r.brN - 1, by omega⟩
    have hbit : r.readBit = some (r.brCur.getLsbD k, { r with brN := k }) := by rw [Stream.readBit, hk]
    rw [hk] at h ⊢
    obtain ⟨w, hw⟩ :=
      ih (r := { r with brN := k }) (2 * v + (r.brCur.getLsbD k).toNat) (Nat.le_of_succ_le_succ h)
    refine ⟨w, ?_⟩
    rw [Stream.readLoop, hbit, Nat.add_sub_add_right]
    exact hw

/-! ### The current byte -/

/-- `br_cur` is the last byte pulled (R23). -/
def LastPulled (r r' : Stream) : Prop := ∃ ps, r.bytes = ps ++ r'.bytes ∧ r'.brCur = ps.getLastD r.brCur

theorem readBit_lastPulled {r r' : Stream} {b : Bool} (h : r.readBit = some (b, r')) : LastPulled r r' := by
  unfold Stream.readBit at h
  split at h
  · cases h
    exact ⟨[], rfl, rfl⟩
  · split at h
    · cases h
    · next b0 r1 hp =>
      cases h
      exact ⟨[b0], (pull_spec hp).1, rfl⟩

theorem LastPulled.trans {r₁ r₂ r₃ : Stream} (h : LastPulled r₁ r₂) (h' : LastPulled r₂ r₃) : LastPulled r₁ r₃ := by
  obtain ⟨ps, hp, hc⟩ := h
  obtain ⟨qs, hq, hc'⟩ := h'
  exact ⟨ps ++ qs, by rw [hp, hq, List.append_assoc], by rw [hc', hc]; cases qs <;> simp [List.getLastD_eq_getLast?]⟩

theorem readLoop_lastPulled {n v w : Nat} {r r' : Stream} (h : r.readLoop n v = .ok w r') : LastPulled r r' := by
  induction n generalizing r v with
  | zero => cases h; exact ⟨[], rfl, rfl⟩
  | succ n ih =>
    rw [Stream.readLoop] at h
    split at h
    · cases h
    · next b r1 hb => exact (readBit_lastPulled hb).trans (ih h)

/-! ### Reads one after another -/

/-- Go on from a read's value. -/
def Read.andThen (o : Read) (k : Nat → Stream → Read) : Read :=
  match o with
  | .ok v r => k v r
  | .stop r => .stop r

/-- The loop of R141 over `n + m` bits goes on after `n` of them with the value so far. -/
theorem readLoop_add (n m v : Nat) (r : Stream) :
    r.readLoop (n + m) v = (r.readLoop n v).andThen fun a r1 => r1.readLoop m a := by
  induction n generalizing r v with
  | zero => rw [Nat.zero_add]; rfl
  | succ n ih =>
    rw [Nat.succ_add, Stream.readLoop, Stream.readLoop]
    split
    · rfl
    · exact ih _ _

/-- The value so far is the high part of the loop's result. -/
theorem readLoop_eq_read (n v : Nat) (r : Stream) :
    r.readLoop n v = (r.read n).andThen fun b r1 => .ok (v * 2 ^ n + b) r1 := by
  suffices h : ∀ c, r.readLoop n (v + c) = (r.readLoop n c).andThen fun b r1 => .ok (v * 2 ^ n + b) r1 from h 0
  intro c
  induction n generalizing r v c with
  | zero => simp [Stream.readLoop, Read.andThen]
  | succ n ih =>
    rw [Stream.readLoop, Stream.readLoop]
    split
    · rfl
    · next b r1 _ =>
      rw [show 2 * (v + c) + b.toNat = 2 * v + (2 * c + b.toNat) by ring, ih,
        show 2 * v * 2 ^ n = v * 2 ^ (n + 1) by ring]

/-- A read of `n + m` bits is a read of `n` and then one of `m` (R146). -/
theorem read_add (n m : Nat) (r : Stream) :
    r.read (n + m) = (r.read n).andThen fun a r1 => (r1.read m).andThen fun b r2 => .ok (a * 2 ^ m + b) r2 := by
  rw [Stream.read, readLoop_add]
  simp only [readLoop_eq_read m]
  rfl

/-- Reads that all succeed are one read of their bits together (R146). -/
theorem read_sum_of_readAll {ns : List Nat} {r r' : Stream} (h : Claims.readAll ns r = some r') :
    ∃ w, r.read ns.sum = .ok w r' := by
  induction ns generalizing r with
  | nil => cases h; exact ⟨0, rfl⟩
  | cons n ns ih =>
    rw [Claims.readAll] at h
    split at h
    · next a r1 hr =>
      obtain ⟨w, hw⟩ := ih h
      exact ⟨a * 2 ^ ns.sum + w, by rw [List.sum_cons, read_add, hr, Read.andThen, hw, Read.andThen]⟩
    · cases h

/-! ### Whole bytes, signed fields and unary counts -/

theorem bitsValue_bytes (v : Nat) (bs : List Byte) :
    bitsValue v (bs.flatMap bvBits) = bs.foldl (fun v b => 256 * v + b.toNat) v := by
  induction bs generalizing v with
  | nil => rfl
  | cons b bs ih =>
    rw [List.flatMap_cons, bitsValue_append, ih, bitsValue_eq, length_bvBits, bvBits, bitsValue_msbBits,
      Nat.mod_eq_of_lt b.isLt, Nat.mul_comm]
    rfl

/-- The bits of whole bytes are the bytes as a big-endian number (R73). -/
theorem bitsValue_eq_bigEndian (bs : List Byte) : bitsValue 0 (bs.flatMap bvBits) = Claims.bigEndian bs :=
  bitsValue_bytes 0 bs

/-- On `n ≤ 64` bits `sext_n` keeps the two's-complement number of the field (R9). -/
theorem toInt_sext {n v : Nat} (hn : n ≤ 64) : (sext n (BitVec.ofNat 64 v)).toInt = (BitVec.ofNat n v).toInt := by
  rw [sext, BitVec.toInt_signExtend_of_le hn, BitVec.truncate, BitVec.setWidth_ofNat_of_le hn]

theorem unaryLoop_of_zeros {fuel : Nat} {r : Stream} (q : Nat) (h : ∀ b ∈ r.upcoming, b = false)
    (hf : r.upcoming.length < fuel) : ∃ r', r.unaryLoop fuel q = .stop r' ∧ r'.upcoming = [] := by
  induction fuel generalizing r q with
  | zero => omega
  | succ fuel ih =>
    rw [Stream.unaryLoop]
    split
    · next hb => exact ⟨r, rfl, readBit_eq_none.1 hb⟩
    · next r1 hb =>
      rw [(readBit_spec hb).1] at h
      exact absurd (h true List.mem_cons_self) (by decide)
    · next r1 hb =>
      rw [(readBit_spec hb).1] at h hf
      exact ih (q + 1) (fun b hm => h b (List.mem_cons_of_mem _ hm)) (Nat.lt_of_succ_lt_succ hf)

end Sys2Proof.Machine

namespace Sys2Proof.Proofs

open Sys2Proof.Machine Sys2Proof.Claims

/-- Settles O4: the read takes the front of the bits to come, and their number fixes the bytes pulled. -/
theorem readReturnsTheNextBits : Obligations.ReadReturnsTheNextBits := by
  unfold Obligations.ReadReturnsTheNextBits
  intro r n hn _ _ hleft
  obtain ⟨v, r', hr⟩ := exists_read_ok hleft
  obtain ⟨hv, hup⟩ := read_ok hr
  obtain ⟨hn', hp, hcount, -⟩ := read_needed hn hr
  exact ⟨v, r', hr, hv, hup, hn', hp, hcount⟩

/-- Settles O5: at the failing pull no bit is left, so every byte was pulled; bits at hand need no pull. -/
theorem readStopsAtTheEnd : Obligations.ReadStopsAtTheEnd := by
  unfold Obligations.ReadStopsAtTheEnd
  refine fun r n hn => ⟨fun hleft => ?_, readLoop_at_hand 0⟩
  obtain ⟨r', hr, hup⟩ := exists_read_stop hleft
  obtain ⟨hbr, hbytes⟩ := upcoming_eq_nil.1 hup
  obtain ⟨ps, hp, -⟩ := read_pulled n r hn
  rw [hr] at hp
  have hall : r.bytes = ps := by rw [hp.1, Read.rest, hbytes, List.append_nil]
  exact ⟨r', hr, hbr, hbytes, hall ▸ hp⟩

/-- Settles O6: the loop goes on from the value so far; the bits of whole bytes are their big-endian number. -/
theorem readsSplit : Obligations.ReadsSplit := by
  unfold Obligations.ReadsSplit
  refine ⟨fun r n m => ?split, fun r bs rest hn hb => ?bytes⟩
  case split =>
    rw [read_add]
    cases r.read n with
    | stop r1 => rfl
    | ok a r1 =>
      rw [Read.andThen]
      cases hm : r1.read m <;> simp only [hm, Read.andThen]
  case bytes =>
    have hup : r.upcoming = bs.flatMap bvBits ++ rest.flatMap bvBits := by
      rw [upcoming_of_aligned hn, hb, List.flatMap_append]
    obtain ⟨r', hr, -⟩ := read_of_upcoming (length_flatMap_msbBits bs) hup
    obtain ⟨hn', hp, hcount, -⟩ := read_needed (hn ▸ Nat.zero_le 7) hr
    have hneed : r.needed (8 * bs.length) = bs := by
      rw [Stream.needed, hn, hb, show (8 * bs.length - 0 + 7) / 8 = bs.length by omega, List.take_left]
    rw [hneed] at hp
    exact ⟨r', hr.trans (congrArg (Read.ok · r') (bitsValue_eq_bigEndian bs)), by omega,
      (List.append_cancel_left (hb.symm.trans hp.1)).symm, hp⟩

/-- Settles O7: the reads are one read of `t` bits, whose length fixes the cursor and the bytes pulled. -/
theorem readsMoveTheCursor : Obligations.ReadsMoveTheCursor := by
  unfold Obligations.ReadsMoveTheCursor
  intro ns r r' hn hpos hfits h
  obtain ⟨w, hr⟩ := read_sum_of_readAll h
  obtain ⟨hn', hp, hcount, hlen⟩ := read_needed hn hr
  have ⟨hb, _, hsrcPos, _⟩ := hp
  have hle : (r.needed ns.sum).length ≤ r.bytes.length := by rw [hb, List.length_append]; omega
  have hsrc : r'.srcPos.toNat = r.srcPos.toNat + (ns.sum - r.brN + 7) / 8 := by
    rw [hsrcPos, BitVec.toNat_add, BitVec.toNat_ofNat, Nat.add_mod_mod, ← hlen, Nat.mod_eq_of_lt (by omega)]
  have hpc : r'.pc = r.pc + ns.sum := by
    rw [Stream.pc, Stream.pc]
    omega
  have hcur : r'.pc + r'.brN = 8 * r'.srcPos.toNat := by
    rw [Stream.pc]
    omega
  obtain ⟨ps, hps, hlast⟩ := readLoop_lastPulled hr
  obtain rfl : ps = r.needed ns.sum := List.append_cancel_right (hps.symm.trans hb)
  exact ⟨hpc, by omega, by omega, hp, hlast⟩

/-- Settles O8: a field of `n` bits is below `2^n`, and `sext_n` keeps its two's-complement number. -/
theorem signedFields : Obligations.SignedFields := by
  unfold Obligations.SignedFields
  intro n v r r' h1 h64 hr
  have hv : v < 2 ^ n := (read_ok hr).1
  obtain ⟨k, rfl⟩ : ∃ k, n = k + 1 := ⟨n - 1, by omega⟩
  have hval : (sext (k + 1) (BitVec.ofNat 64 v)).toInt = if v < 2 ^ k then (v : Int) else (v : Int) - 2 ^ (k + 1) := by
    have hhalf : 2 * v < 2 ^ (k + 1) ↔ v < 2 ^ k := by rw [pow_succ]; omega
    rw [toInt_sext h64, BitVec.toInt_eq_toNat_cond, BitVec.toNat_ofNat, Nat.mod_eq_of_lt hv, if_congr hhalf rfl rfl]
    push_cast
    rfl
  rw [Nat.add_sub_cancel, hval]
  refine ⟨rfl, ?_⟩
  have hpow : (2 : Int) ^ k = ((2 ^ k : Nat) : Int) := by push_cast; rfl
  rw [pow_succ] at hv ⊢
  rw [hpow]
  split <;> omega

/-- Settles O9: the scan ends at the first 1 bit, or, over 0 bits only, where no bit is left. -/
theorem unaryCountsZeros : Obligations.UnaryCountsZeros := by
  unfold Obligations.UnaryCountsZeros
  refine fun r => ⟨fun q rest h => readUnary_of_upcoming q h, fun h => ?_⟩
  obtain ⟨r', hr, hup⟩ := unaryLoop_of_zeros 0 h (by rw [← bitsLeft_eq]; exact Nat.lt_succ_self _)
  exact ⟨r', hr, upcoming_eq_nil.1 hup⟩

end Sys2Proof.Proofs
end

section
/-! PROOFS. That every step answers: what a position reads is of its format and of a width within 1 to 64, and each
element leaves the next one so. -/

namespace Sys2Proof

open Sys2Proof.Machine

/-! ### What a format's decoder can answer -/

/-- Decoding in format `f` gave an instruction of that format, or a rejection or an end, but no refused width. -/
def Decoded.Answers (f : Format) : Decoded → Prop
  | .instr i _ => i.format = f
  | .illegal _ _ => True
  | .stopped _ => True
  | .noCommand _ => True
  | .badWidth _ => False

section Answers

variable {f : Format} {r : Stream} {k : Nat → Stream → Decoded}

theorem field_answers {n : Nat} (hk : ∀ v r1, (k v r1).Answers f) : (field n r k).Answers f := by
  unfold field
  split
  · exact hk _ _
  · trivial

theorem sizedField_answers {n : Nat} (h1 : 1 ≤ n) (h64 : n ≤ 64) (hk : ∀ v r1, (k v r1).Answers f) :
    (sizedField n r k).Answers f := by
  rw [sizedField, if_pos (show 1 ≤ n ∧ n ≤ Config.maxRead from ⟨h1, h64⟩)]
  exact field_answers hk

theorem unaryField_answers (hk : ∀ q r1, (k q r1).Answers f) : (unaryField r k).Answers f := by
  unfold unaryField
  split
  · exact hk _ _
  · trivial

theorem ite_answers {c : Prop} [Decidable c] {d e : Decoded} (hd : d.Answers f) (he : ¬c → e.Answers f) :
    (if c then d else e).Answers f := by
  by_cases h : c
  · rwa [if_pos h]
  · rw [if_neg h]; exact he h

theorem decodeCmd_answers : (decodeCmd r).Answers .cmd := by
  refine field_answers fun v r1 => ?_
  split
  · next i hi =>
    unfold commandOf at hi
    split at hi
    · cases hi; rfl
    · split at hi <;> cases hi
      rfl
  · trivial

theorem decodeFh_answers : (decodeFh r).Answers .fh :=
  field_answers fun _ _ => ite_answers trivial fun _ => field_answers fun _ _ => ite_answers trivial fun _ =>
    field_answers fun _ _ => field_answers fun _ _ => field_answers fun _ _ => field_answers fun _ _ =>
    field_answers fun _ _ => field_answers fun _ _ => ite_answers trivial fun _ => rfl

theorem decodeCa_answers (code : BitVec 4) : (decodeCa code r).Answers .ca := by
  unfold decodeCa
  split <;> rfl

theorem decodeSsc_answers (code : BitVec 3) : (decodeSsc code r).Answers .ssc := by
  unfold decodeSsc
  split <;> rfl

theorem decodeBsc_answers (code : BitVec 4) : (decodeBsc code r).Answers .bsc := by
  unfold decodeBsc
  split
  case h_7 | h_8 => exact field_answers fun _ _ => rfl
  all_goals rfl

theorem decodeRc_answers (code : BitVec 4) : (decodeRc code r).Answers .rc := by
  unfold decodeRc
  split
  case h_13 | h_14 | h_15 => exact field_answers fun _ _ => rfl
  all_goals rfl

theorem leadOf_format (b : Nat) : (leadOf b).format = .u8 := by
  unfold leadOf
  split_ifs <;> rfl

theorem contOf_format (b : Nat) : (contOf b).format = .u8cont := by
  unfold contOf
  split_ifs <;> rfl

theorem decodeType_answers (pad : BitVec 1) (t : BitVec 6) : (decodeType pad t r).Answers .sfh := by
  have flag : ∀ row : BitVec 1 → Instr, (∀ v, (row v).format = .sfh) →
      (field 1 r fun v r1 => .instr (row (BitVec.ofNat 1 v)) r1).Answers .sfh :=
    fun _ hrow => field_answers fun _ _ => hrow _
  exact ite_answers (flag _ fun _ => rfl) fun _ => ite_answers (flag _ fun _ => rfl) fun _ => ite_answers rfl fun _ =>
    ite_answers rfl fun _ => ite_answers (flag _ fun _ => rfl) fun _ => ite_answers (flag _ fun _ => rfl) fun _ =>
    ite_answers (flag _ fun _ => rfl) fun _ => ite_answers (flag _ fun _ => rfl) fun _ =>
    ite_answers (flag _ fun _ => rfl) fun _ => ite_answers rfl fun _ => ite_answers rfl fun _ => ite_answers rfl fun _ =>
    flag _ fun _ => rfl

theorem decodeSfh_answers {strict : Bool} : (decodeSfh strict r).Answers .sfh :=
  field_answers fun _ _ => field_answers fun _ _ => ite_answers rfl fun _ => decodeType_answers _ _

theorem decodeLph_answers : (decodeLph r).Answers .lph :=
  field_answers fun _ _ => ite_answers rfl fun _ => field_answers fun _ _ => ite_answers rfl fun _ => rfl

theorem decodeRes_answers : (decodeRes r).Answers .res :=
  field_answers fun _ _ => ite_answers rfl fun _ => field_answers fun _ _ => ite_answers rfl fun _ => rfl

theorem param_answers {n e : Nat} {esc : Instr} {row : BitVec n → Instr} (hesc : esc.format = f)
    (hrow : ∀ m, (row m).format = f) :
    (field n r fun m r1 => .instr (if m = e then esc else row (BitVec.ofNat n m)) r1).Answers f := by
  refine field_answers fun m r1 => ?_
  split
  · exact hesc
  · exact hrow _

theorem decodeRice_answers {m : Nat} (hm : m ≤ 64) : (decodeRice m r).Answers (.rice m) :=
  unaryField_answers fun _ _ => ite_answers rfl fun h =>
    sizedField_answers (Nat.one_le_iff_ne_zero.2 h) hm fun _ _ => rfl

theorem decodeFt_answers : (decodeFt r).Answers .ft := by
  unfold decodeFt
  split
  · trivial
  · split
    · trivial
    · rfl

end Answers

end Sys2Proof

namespace Sys2Proof.Machine

/-! ### What a position reads -/

/-- The format of the element at the position (R304). -/
def State.format (s : State) : Format :=
  match s.seq.pos with
  | .frame => .fh
  | .ca => .ca
  | .ssc => .ssc
  | .numLead => .u8
  | .numCont => .u8cont
  | .bsc => .bsc
  | .rc => .rc
  | .crc8 => .crc8
  | .subHdr => .sfh
  | .wsuffix => .wsuffix
  | .smp => .smp s.width
  | .lph => .lph
  | .coef => .coef (s.seq.prec.toNat + 1)
  | .res => .res
  | .part => if s.seq.method = 0 then .part4 else .part5
  | .rice => .rice s.seq.m.toNat
  | .pad => .pad
  | .foot => .ft

/-- The width in bits of the current channel's samples, before `State.width` cuts it off at 0 (R231). -/
def State.sampleBits (s : State) : Int := sampleWidth s.hdr.ss s.hdr.ca s.seq.ch s.cur.wasted.toNat

/-- Where a sample comes next, it has a bit (R232). -/
def State.sampleOk (s : State) : Prop := s.seq.pos = .smp → 1 ≤ s.sampleBits

theorem sideBit_le_one (ca : BitVec 4) (c : Nat) : sideBit ca c ≤ 1 := by
  unfold sideBit
  split <;> decide

/-- A sample is at most 64 bits wide: 63 and the side bit (R231). -/
theorem sampleBits_le (s : State) : s.sampleBits ≤ 64 := by
  have hside := sideBit_le_one s.hdr.ca s.seq.ch
  have hss := s.hdr.ss.isLt
  rw [State.sampleBits, sampleWidth]
  omega

/-- The element at the position is read in its format, with every width within 1 to 64 (R148). -/
theorem fetch_answers {s : State} (h : s.sampleOk) : s.fetch.Answers s.format := by
  unfold State.fetch State.format
  cases hp : s.seq.pos with
  | frame => exact decodeFh_answers
  | ca => exact decodeCa_answers _
  | ssc => exact decodeSsc_answers _
  | numLead => exact field_answers fun _ _ => leadOf_format _
  | numCont => exact field_answers fun _ _ => contOf_format _
  | bsc => exact decodeBsc_answers _
  | rc => exact decodeRc_answers _
  | crc8 => exact field_answers fun _ _ => rfl
  | subHdr => exact decodeSfh_answers
  | wsuffix => exact unaryField_answers fun _ _ => rfl
  | smp =>
    have hlow : 1 ≤ s.sampleBits := h hp
    have hhigh := sampleBits_le s
    have hw : s.width = s.sampleBits.toNat := rfl
    exact sizedField_answers (by omega) (by omega) fun _ _ => rfl
  | lph => exact decodeLph_answers
  | coef =>
    have hprec := s.seq.prec.isLt
    exact sizedField_answers (Nat.le_add_left 1 _) (by omega) fun _ _ => rfl
  | res => exact decodeRes_answers
  | part =>
    dsimp only
    split
    · exact param_answers rfl fun _ => rfl
    · exact param_answers rfl fun _ => rfl
  | rice =>
    have hm := s.seq.m.isLt
    exact decodeRice_answers (by omega)
  | pad => rfl
  | foot => exact decodeFt_answers

/-- A sample is read at the position of samples only. -/
theorem pos_of_format_smp {s : State} {b : Nat} (h : s.format = .smp b) : s.seq.pos = .smp := by
  unfold State.format at h
  split at h
  case h_11 hp => exact hp
  case h_15 => split at h <;> cases h
  all_goals cases h

/-! ### Each element leaves the next sample with a bit -/

/-- Wherever the element at the position is no sample. -/
theorem sampleOk_of_pos {s : State} (h : s.seq.pos ≠ .smp) : s.sampleOk := fun hp => absurd hp h

theorem sampleOk_finishSubframe (s : State) : s.finishSubframe.sampleOk := by
  refine sampleOk_of_pos ?_
  rw [State.finishSubframe_seq]
  dsimp only
  split <;> decide

theorem sampleOk_reconstruct (s : State) : s.reconstruct.sampleOk := by
  obtain ⟨f, x, h⟩ := reconstruct_eq_finish s
  rw [h]
  exact sampleOk_finishSubframe _

theorem sampleOk_nextPartition (s : State) : s.nextPartition.sampleOk := by
  obtain ⟨-, h⟩ | ⟨-, h⟩ := nextPartition_cases s <;> rw [h]
  · exact sampleOk_of_pos (show Pos.part ≠ .smp by decide)
  · exact sampleOk_reconstruct s

theorem sampleOk_startBody {s : State} (h : 1 ≤ s.sampleBits) : s.startBody.sampleOk := by
  obtain ⟨p, hs⟩ | ⟨-, hs⟩ := startBody_cases s <;> rw [hs]
  · exact fun _ => h
  · exact sampleOk_finishSubframe _

/-- The width that acceptance checks is the width of the record it writes (R231 to R233). -/
theorem le_sampleBits_of_accepted {s : State} {kind : SubKind} {order : BitVec 6} {w : Nat}
    (h : 1 ≤ sampleWidth s.hdr.ss s.hdr.ca s.seq.ch w) :
    1 ≤ State.sampleBits
      { s with subs := s.subs.setIfInBounds s.seq.ch { kind := kind, order := order, wasted := BitVec.ofNat 6 w } } := by
  have hw :
      (State.cur
        { s with
          subs :=
            s.subs.setIfInBounds s.seq.ch
              { kind := kind, order := order, wasted := BitVec.ofNat 6 w } }).wasted.toNat ≤ w := by
    by_cases hc : s.seq.ch < 8
    · rw [State.cur, sub_setIfInBounds hc]
      exact Nat.mod_le _ _
    · rw [State.cur, State.sub, Vector.getElem?_eq_none (Nat.le_of_not_lt hc)]
      exact Nat.zero_le w
  rw [State.sampleBits, sampleWidth]
  rw [sampleWidth] at h
  dsimp only at hw ⊢
  omega

theorem sampleOk_acceptHeader (s : State) (kind : SubKind) (order : BitVec 6) (w : Nat) :
    (s.acceptHeader kind order w).sampleOk := by
  obtain ⟨-, h⟩ | ⟨hw, h⟩ := acceptHeader_cases s kind order w <;> rw [h]
  · exact sampleOk_of_pos (show Pos.frame ≠ .smp by decide)
  · exact sampleOk_startBody (le_sampleBits_of_accepted hw)

theorem sampleOk_raise (s : State) (k : ErrKind) (info : BitVec 32) : (s.raise k info).sampleOk :=
  sampleOk_of_pos nofun

theorem sampleOk_channelAssignment (s : State) (ca : BitVec 4) : (s.channelAssignment ca).sampleOk := by
  unfold State.channelAssignment
  split <;> exact sampleOk_of_pos nofun

theorem sampleOk_utf8Lead (s : State) (extra : Nat) (v : BitVec 36) : (s.utf8Lead extra v).sampleOk := by
  unfold State.utf8Lead
  split <;> exact sampleOk_of_pos nofun

theorem sampleOk_utf8Cont {s : State} (h : s.sampleOk) (payload : BitVec 6) : (s.utf8Cont payload).sampleOk := by
  unfold State.utf8Cont
  dsimp only
  split
  · exact sampleOk_of_pos nofun
  · exact h

theorem sampleOk_gotoSubframe (s : State) (c : Nat) : (s.gotoSubframe c).sampleOk := by
  refine sampleOk_of_pos ?_
  rw [State.gotoSubframe_seq]
  dsimp only
  split <;> decide

theorem sampleOk_subframeHeader (s : State) (pad : BitVec 1) (t : BitVec 6) (wflag : BitVec 1) :
    (s.subframeHeader pad t wflag).sampleOk := by
  unfold State.subframeHeader
  split
  · exact sampleOk_raise s _ _
  · split
    · exact sampleOk_raise s _ _
    · split
      · exact sampleOk_acceptHeader s _ _ _
      · exact sampleOk_of_pos nofun

/-- A sample that another one follows is followed by one of the same width. -/
theorem sampleOk_sample {s : State} (h : 1 ≤ s.sampleBits) (v : Word) : (s.sample v).sampleOk := by
  unfold State.sample
  dsimp only
  split
  · exact sampleOk_finishSubframe _
  · split
    · exact fun _ => h
    · exact sampleOk_finishSubframe _
  all_goals
    split
    · exact fun _ => h
    · exact sampleOk_of_pos nofun

theorem sampleOk_lpcHeader (s : State) (prec : BitVec 4) (shift : BitVec 5) : (s.lpcHeader prec shift).sampleOk := by
  unfold State.lpcHeader
  split
  · exact sampleOk_raise s _ _
  · split <;> exact sampleOk_of_pos nofun

theorem sampleOk_coefficient (s : State) (v : Word) : (s.coefficient v).sampleOk := by
  unfold State.coefficient
  dsimp only
  split <;> exact sampleOk_of_pos nofun

theorem sampleOk_residualHeader (s : State) (method : BitVec 2) (porder : BitVec 4) :
    (s.residualHeader method porder).sampleOk := by
  unfold State.residualHeader
  split
  · exact sampleOk_raise s _ _
  · split <;> exact sampleOk_of_pos nofun

theorem sampleOk_partition (s : State) (mBits : Nat) (m : BitVec 5) : (s.partition mBits m).sampleOk := by
  unfold State.partition
  dsimp only
  split
  · exact sampleOk_raise s _ _
  · split
    · exact sampleOk_raise s _ _
    · split
      · exact sampleOk_nextPartition _
      · exact sampleOk_of_pos nofun

theorem sampleOk_residual {s : State} (h : s.sampleOk) (v : Word) : (s.residual v).sampleOk := by
  unfold State.residual
  dsimp only
  split
  · exact sampleOk_nextPartition _
  · exact h

theorem sampleOk_endOfInput (first : Bool) (s : State) : (s.endOfInput first).sampleOk := by
  unfold State.endOfInput
  split
  · exact sampleOk_raise s _ _
  · split <;> exact sampleOk_of_pos nofun

theorem format_ne_cmd (s : State) : s.format ≠ .cmd := by
  unfold State.format
  split
  case h_15 => split <;> nofun
  all_goals nofun

/-- An instruction of the position's format leaves the next sample with a bit: only a subframe header, which is accepted
with one, and a sample lead to a sample. -/
theorem exec_sampleOk {i : Instr} {s t : State} (hs : s.sampleOk) (hf : i.format = s.format) (h : exec i s = .next t) :
    t.sampleOk := by
  cases i with
  | next | reset => exact absurd hf.symm (format_ne_cmd s)
  | ca0 | ca1 | ca2 | ca3 | ca4 | ca5 | ca6 | ca7 | ca8 | ca9 | ca10 | ca11 | ca12 | ca13 | ca14 | ca15 =>
    cases h
    exact sampleOk_channelAssignment s _
  | frame | padbits | ssc0 | ssc1 | ssc2 | ssc4 | ssc5 | ssc6 | bsc1 | bsc2 | bsc3 | bsc4 | bsc5 | bsc6 | bsc7 | bsc8
  | bsc9 | bsc10 | bsc11 | bsc12 | bsc13 | bsc14 | bsc15 | rc0 | rc1 | rc2 | rc3 | rc4 | rc5 | rc6 | rc7 | rc8 | rc9
  | rc10 | rc11 | rc12 | rc13 | rc14 | ssc3 | ssc7 | u8BadLead1 | u8BadLead8 | u8BadCont0 | u8BadCont3 | bsc0 | rc15
  | subBadPad =>
    cases h
    exact sampleOk_of_pos nofun
  | u8Lead1 | u8Lead2 | u8Lead3 | u8Lead4 | u8Lead5 | u8Lead6 | u8Lead7 =>
    cases h
    exact sampleOk_utf8Lead s _ _
  | u8Cont =>
    cases h
    exact sampleOk_utf8Cont hs _
  | crc8 =>
    cases h
    split
    · exact sampleOk_gotoSubframe _ 0
    · exact sampleOk_raise _ _ _
  | subConstant | subVerbatim | subFixed0 | subFixed1 | subFixed2 | subFixed3 | subFixed4 | subLpc | subRsvd00001x
  | subRsvd0001xx | subRsvd001101 | subRsvd00111x | subRsvd01xxxx =>
    cases h
    exact sampleOk_subframeHeader s _ _ _
  | wsuffix =>
    cases h
    exact sampleOk_acceptHeader s _ _ _
  | smp =>
    cases h
    exact sampleOk_sample (hs (pos_of_format_smp hf.symm)) _
  | lph | lphBadPrec | lphBadShift =>
    cases h
    exact sampleOk_lpcHeader s _ _
  | coef =>
    cases h
    exact sampleOk_coefficient s _
  | resRice4 | resRice5 | resBadMethod =>
    cases h
    exact sampleOk_residualHeader s _ _
  | part4 | part4Esc | part5 | part5Esc =>
    cases h
    exact sampleOk_partition s _ _
  | rice =>
    cases h
    exact sampleOk_residual hs _
  | foot =>
    cases h
    split <;> exact sampleOk_of_pos nofun

/-! ### From element to element -/

/-- From `s` an element can be read: the source is within what `src_pos` counts, and the widths are in range. -/
structure State.Readable (s : State) : Prop where
  brN : s.dp.brN ≤ 7
  fits : s.sourceFits = true
  sample : s.sampleOk

/-- Opening an element and consuming its bits do not move the sequencer. -/
theorem sampleOk_fetched {s : State} (h : s.sampleOk) (r : Stream) : (s.openElement.withStream r).sampleOk := by
  simpa [State.sampleOk, State.sampleBits, State.cur, State.sub] using h

theorem format_fetched (s : State) (r : Stream) : (s.openElement.withStream r).format = s.openElement.format := rfl

/-- In a readable state an element answers. -/
theorem stepElement_next {s : State} (h : s.Readable) : ∃ t, stepElement s = .next t := by
  have ha := fetch_answers (sampleOk_fetched h.sample s.openElement.stream)
  rw [State.withStream_self] at ha
  rw [stepElement, if_pos h.fits]
  dsimp only
  split
  · exact exec_next _ _
  · exact ⟨_, rfl⟩
  · exact ⟨_, rfl⟩
  · exact ⟨_, rfl⟩
  · next hf =>
    rw [hf] at ha
    exact ha.elim

theorem stepElement_sampleOk {s t : State} (hb : s.status = .busy) (hs : s.Readable) (h : stepElement s = .next t) :
    t.sampleOk := by
  have hfetched := sampleOk_fetched hs.sample
  obtain ⟨r, ⟨i, hf, -⟩ | ⟨k, -, rfl⟩ | ⟨-, rfl⟩ | ⟨-, rfl⟩⟩ := stepElement_cases hb h
  · have ha := fetch_answers (hfetched s.openElement.stream)
    rw [State.withStream_self, hf] at ha
    rw [stepElement_instr hs.fits hf, ← openElement_withStream] at h
    exact exec_sampleOk (hfetched r) (ha.trans (format_fetched s r).symm) h
  · exact sampleOk_raise _ _ _
  · exact sampleOk_endOfInput _ _
  · exact hfetched r

/-- An element pulls bytes and leaves at most 7 bits unread, whoever the host is. -/
theorem stepElement_pulls {s t : State} (hn : s.dp.brN ≤ 7) (hb : s.status = .busy) (h : stepElement s = .next t) :
    t.dp.brN ≤ 7 ∧ ∃ ps : List Byte, s.src.bytes = ps ++ t.src.bytes ∧
      t.dp.srcPos = s.dp.srcPos + BitVec.ofNat 64 ps.length := by
  have hopen : s.openElement.stream.brN ≤ 7 := by simpa using hn
  obtain ⟨ps, ⟨hbytes, -, hpos, -⟩, hrest⟩ := rest_pulled hopen (fetch_consumes s.openElement hopen)
  rw [State.stream_toSource, State.openElement_src] at hbytes
  rw [State.stream_toDatapath, State.openElement_srcPos] at hpos
  show t.stream.brN ≤ 7 ∧ ∃ ps : List Byte, s.src.bytes = ps ++ t.stream.bytes ∧
    t.stream.srcPos = s.dp.srcPos + BitVec.ofNat 64 ps.length
  obtain h | h | h := stepElement_stream hb h <;> rw [h]
  · exact ⟨hrest, ps, hbytes, hpos⟩
  · exact ⟨Nat.zero_le 7, ps, hbytes, hpos⟩
  · exact ⟨hrest, ps, hbytes, hpos⟩

/-- Pulls move bytes from the source to what `src_pos` has counted. -/
theorem sourceFits_of_pulls {s t : State} {ps : List Byte} (h : s.sourceFits = true)
    (hb : s.src.bytes = ps ++ t.src.bytes)
    (hp : t.dp.srcPos = s.dp.srcPos + BitVec.ofNat 64 ps.length) : t.sourceFits = true := by
  unfold State.sourceFits at h ⊢
  rw [decide_eq_true_iff] at h ⊢
  rw [hb, List.length_append] at h
  rw [hp, BitVec.toNat_add, BitVec.toNat_ofNat, Nat.add_mod_mod, Nat.mod_eq_of_lt (by omega)]
  omega

theorem stepElement_readable {s t : State} (hb : s.status = .busy) (hs : s.Readable) (h : stepElement s = .next t) :
    t.Readable := by
  obtain ⟨hn, ps, hbytes, hpos⟩ := stepElement_pulls hs.brN hb h
  exact ⟨hn, sourceFits_of_pulls hs.fits hbytes hpos, stepElement_sampleOk hb hs h⟩

/-- From a readable state the elements of a NEXT all answer. -/
theorem runFrame_next {s : State} (h : s.Readable) (fuel : Nat) : ∃ t, runFrame fuel s = .next t := by
  induction fuel generalizing s with
  | zero => exact ⟨s, rfl⟩
  | succ fuel ih =>
    by_cases hb : s.status = .busy
    · obtain ⟨u, hu⟩ := stepElement_next h
      rw [runFrame_busy hb, hu, andThen_next]
      exact ih (stepElement_readable hb h hu)
    · exact ⟨s, runFrame_of_not_busy hb _⟩

/-- In the invariant a sample has a bit (R232), as far as the element at the position is one. -/
theorem readable_of_inv {s : State} (hi : s.Inv) (hf : s.sourceFits = true) (hb : s.status = .busy) : s.Readable := by
  obtain ⟨hn, -, -, -, hst, -⟩ := hi
  refine ⟨hn, hf, fun hp => ?_⟩
  rw [State.statusOk, hb] at hst
  rw [State.posOk, hp] at hst
  obtain ⟨-, ⟨-, -, hwidth⟩, -⟩ := hst
  exact hwidth

/-- Outside BUSY a command is executed, and what it makes BUSY runs on (R295, R392). -/
theorem stepWrite_of_command {s : State} {n : Nat} {v : Word} {i : Instr} (hc : commandOfWrite n v = some i)
    (hb : s.status ≠ .busy) : stepWrite n v s = andThen (exec i s) fun t => runFrame t.elementBound t := by
  rw [stepWrite, hc]
  exact if_neg hb

/-- A host write answers: NEXT starts at the frame header, where no sample is read. -/
theorem stepWrite_next {s : State} (hn : s.dp.brN ≤ 7) (hf : s.sourceFits = true) (n : Nat) (v : Word) :
    ∃ t, stepWrite n v s = .next t := by
  by_cases hb : s.status = .busy
  · exact ⟨s, stepWrite_busy hb n v⟩
  obtain ⟨-, -, hc⟩ | ⟨-, -, hc⟩ | hc := commandOfWrite_cases n v
  · rw [stepWrite_of_command hc hb, exec, execNext, andThen_next]
    split
    · apply runFrame_next
      exact ⟨hn, hf, sampleOk_of_pos nofun⟩
    · exact ⟨s, runFrame_of_not_busy hb _⟩
  · rw [stepWrite_of_command hc hb, exec, execReset, if_neg hb, andThen_next]
    exact ⟨_, runFrame_of_not_busy (by rw [State.hardReset_status]; nofun) _⟩
  · exact ⟨_, stepWrite_of_no_command hc s⟩

/-! ### Elements that stop -/

theorem stepElement_stopped {s : State} {r : Stream} (hs : s.sourceFits = true) (hf : s.openElement.fetch = .stopped r) :
    stepElement s = .next ((s.openElement.withStream r).endOfInput (s.seq.pos = .frame ∧ s.src.bytes = [])) := by
  rw [stepElement, if_pos hs]
  dsimp only
  rw [hf]

theorem endOfInput_ioError {s : State} {e : BitVec 32} (h : s.src.term = .ioError e) (first : Bool) :
    s.endOfInput first = s.raise .ioError e := by
  rw [State.endOfInput, h]

theorem endOfInput_unexpected {s : State} (h : s.src.term = .eof) : s.endOfInput false = s.raise .unexpectedEof 0 := by
  rw [State.endOfInput, h]
  rfl

end Sys2Proof.Machine

namespace Sys2Proof.Proofs

open Sys2Proof.Machine Sys2Proof.Claims

/-- Settles O52: BUSY states of the invariant are readable, elements keep that, and the host's accesses always answer. -/
theorem everyStepAnswers : Obligations.EveryStepAnswers := by
  unfold Obligations.EveryStepAnswers
  intro s hi hf
  have hbusy : s.status = .busy → ∃ t, stepElement s = .next t := fun hb => stepElement_next (readable_of_inv hi hf hb)
  rw [step, stepMachine]
  split
  · rw [stepCore]
    split
    · next hb => exact hbusy hb
    · exact ⟨s, rfl⟩
  · split
    · next hb => exact hbusy hb
    · exact ⟨_, rfl⟩
  · next n v rest _ => exact stepWrite_next (s := { s with host := rest }) hi.1 hf n v
  · exact ⟨_, rfl⟩
  · exact ⟨_, rfl⟩

/-- Settles O14: what `raise` and the end of input leave. -/
theorem rejectedElementsFault : Obligations.RejectedElementsFault := by
  unfold Obligations.RejectedElementsFault
  intro s r hs hb hh
  rw [step_element hh hb]
  refine ⟨fun k hf => ?_, fun e hf ht => ?_, fun hf ht hfirst => ?_⟩
  · rw [stepElement_illegal hs hf, openElement_withStream]
    rfl
  · rw [stepElement_stopped hs hf, endOfInput_ioError ht]
    rfl
  · rw [stepElement_stopped hs hf, decide_eq_false hfirst, endOfInput_unexpected ht]
    rfl

/-- Settles O44: dropping the unread bits leaves none. -/
theorem paddingRow : Obligations.PaddingRow := by
  unfold Obligations.PaddingRow
  exact fun _ _ _ => rfl

end Sys2Proof.Proofs
end

section
/-! PROOFS. The number of a frame header: what its lead and continuation bytes do, and that decoding inverts the shortest
form (R102, R161, R165). -/

namespace Sys2Proof.Machine

open Sys2Proof.Claims

/-! ### A continuation byte -/

/-- Six more bits below a number are a multiplication by 64 and an addition. -/
theorem shiftLeft_six_add (v : BitVec 36) (p : BitVec 6) :
    (v <<< 6) + p.zeroExtend 36 = BitVec.ofNat 36 (v.toNat * 64 + p.toNat) := by
  rw [BitVec.ofNat_add, BitVec.ofNat_mul, ofNat_toNat_self, BitVec.ofNat_toNat, BitVec.shiftLeft_eq_mul_twoPow]
  rfl

theorem utf8Cont_last {s : State} (h : s.seq.numLeft = 1) (p : BitVec 6) :
    s.utf8Cont p = withNumber s (BitVec.ofNat 36 (s.seq.num.toNat * 64 + p.toNat)) := by
  rw [State.utf8Cont, if_pos h.le, shiftLeft_six_add]
  rfl

theorem utf8Cont_more {s : State} (h : 2 ≤ s.seq.numLeft) (p : BitVec 6) :
    s.utf8Cont p =
      { s with
        seq :=
          { s.seq with
            num := BitVec.ofNat 36 (s.seq.num.toNat * 64 + p.toNat), numLeft := s.seq.numLeft - 1 } } := by
  rw [State.utf8Cont, if_neg (by omega), shiftLeft_six_add]

end Sys2Proof.Machine

namespace Sys2Proof.Proofs

open Sys2Proof.Machine Sys2Proof.Claims

/-- Settles O22: whether this is the last byte decides; the others have no meaning but BadUtf8. -/
theorem utf8ContinuationRows : Obligations.Utf8ContinuationRows := by
  unfold Obligations.Utf8ContinuationRows
  exact fun s => ⟨fun p h => congrArg _ (utf8Cont_last h p), fun p h => congrArg _ (utf8Cont_more h p), fun _ => rfl,
    fun _ => rfl⟩

end Sys2Proof.Proofs

namespace Sys2Proof.Machine

open Sys2Proof.Claims

/-! ### The bytes of a number, by their values -/

theorem toNat_ofNat_of_lt {n y : Nat} (hy : y < 2 ^ n) : (BitVec.ofNat n y).toNat = y := Nat.mod_eq_of_lt hy

/-- The row of a pattern of leading bits, met in the value of a byte. -/
theorem exec_leadOf_pattern {m n : Nat} {pat : BitVec m} {row : BitVec n → Instr} {k y : Nat} {s : State}
    (hrow : ∀ p, leadOf (pat ++ p).toNat = row p)
    (hexec : ∀ p, exec (row p) s = .next (numberStarts s k (BitVec.ofNat 36 p.toNat))) (hy : y < 2 ^ n) :
    exec (leadOf (pat.toNat * 2 ^ n + y)) s = .next (numberStarts s k (BitVec.ofNat 36 y)) := by
  have hp : (BitVec.ofNat n y).toNat = y := toNat_ofNat_of_lt hy
  have h := hexec (BitVec.ofNat n y)
  rwa [← hrow, toNat_append_eq, hp] at h

/-- A lead byte of `k + 1` leading 1 bits and a 0 bit starts a number of `k` more bytes with the value below them
(R102). -/
theorem exec_leadOf {k y : Nat} (hk : 1 ≤ k ∧ k ≤ 6) (hy : y < 2 ^ (6 - k)) (s : State) :
    exec (leadOf (256 - 2 ^ (7 - k) + y)) s = .next (numberStarts s k (BitVec.ofNat 36 y)) := by
  obtain ⟨-, h2, h3, h4, h5, h6, h7, -, -⟩ := Proofs.utf8LeadRows s
  obtain ⟨h1, h6'⟩ := hk
  interval_cases k
  · exact exec_leadOf_pattern leadOf_lead2 h2 hy
  · exact exec_leadOf_pattern leadOf_lead3 h3 hy
  · exact exec_leadOf_pattern leadOf_lead4 h4 hy
  · exact exec_leadOf_pattern leadOf_lead5 h5 hy
  · exact exec_leadOf_pattern leadOf_lead6 h6 hy
  · obtain rfl : y = 0 := Nat.lt_one_iff.1 hy
    exact h7

theorem leadByte_lt {k y : Nat} (hk : 1 ≤ k ∧ k ≤ 6) (hy : y < 2 ^ (6 - k)) : 256 - 2 ^ (7 - k) + y < 2 ^ 8 := by
  obtain ⟨h1, h6⟩ := hk
  interval_cases k <;> omega

/-- A byte below 2^7 is the whole number. -/
theorem exec_leadOf_single {y : Nat} (hy : y < 2 ^ 7) (s : State) :
    exec (leadOf y) s = .next (withNumber s (BitVec.ofNat 36 y)) := by
  obtain ⟨h1, -⟩ := Proofs.utf8LeadRows s
  have h := h1 (BitVec.ofNat 7 y)
  rwa [toNat_ofNat_of_lt hy, show Instr.u8Lead1 (BitVec.ofNat 7 y) = leadOf y from (if_pos hy).symm] at h

/-- A byte of 10 and six bits is a continuation byte (R102). -/
theorem contOf_of_lt {y : Nat} (hy : y < 64) : contOf (0x80 + y) = .u8Cont (BitVec.ofNat 6 y) := by
  have hp : (BitVec.ofNat 6 y).toNat = y := toNat_ofNat_of_lt hy
  have h := contOf_cont (BitVec.ofNat 6 y)
  rwa [toNat_append_eq, hp] at h

/-- The shortest form is one byte, or a lead byte and the continuation bytes it announces (R102, R165). -/
theorem utf8Bytes_cases {x : Nat} (hx : x < 2 ^ 36) :
    (x < 2 ^ 7 ∧ utf8Bytes x = [BitVec.ofNat 8 x]) ∨
      ∃ k, (1 ≤ k ∧ k ≤ 6) ∧ x / 64 ^ k < 2 ^ (6 - k) ∧
        utf8Bytes x = BitVec.ofNat 8 (256 - 2 ^ (7 - k) + x / 64 ^ k) :: contBytes k x := by
  unfold utf8Bytes
  split
  · next h => exact .inl ⟨h, rfl⟩
  right
  split
  · exact ⟨1, by decide, by omega, by rw [pow_one]; rfl⟩
  split
  · exact ⟨2, by decide, by omega, rfl⟩
  split
  · exact ⟨3, by decide, by omega, rfl⟩
  split
  · exact ⟨4, by decide, by omega, rfl⟩
  split
  · exact ⟨5, by decide, by omega, rfl⟩
  · have h0 : x / 64 ^ 6 = 0 := by omega
    exact ⟨6, by decide, by omega, by rw [h0]; rfl⟩

/-! ### One step a byte -/

theorem bytes_of_pulled_cons {r r' : Stream} {b : Byte} {rest : List Byte} (hp : Pulled [b] r r')
    (hb : r.bytes = b :: rest) : r'.bytes = rest := by
  obtain ⟨hbytes, -⟩ := hp
  exact (List.cons.inj (hb.symm.trans hbytes)).2.symm

/-- Where the position reads a field of eight bits, a step on a byte boundary takes one byte and executes its row. -/
theorem step_byteField {s : State} {p : Pos} {row : Nat → Instr} {r : Stream} {b : Byte} {rest : List Byte}
    (hs : ready s p) (hf : s.openElement.fetch = field 8 r fun v r1 => .instr (row v) r1) (hn : r.brN = 0)
    (hb : r.bytes = b :: rest) :
    ∃ r', Pulled [b] r r' ∧ r'.brN = 0 ∧ step s = exec (row b.toNat) (s.withStream r') := by
  obtain ⟨hbusy, hh, -, hfits⟩ := hs
  have hup : r.upcoming = bvBits b ++ rest.flatMap bvBits := by
    rw [upcoming_of_aligned hn, hb, List.flatMap_cons]
  have hc := field_consumes 8 r (fun v r1 => .instr (row v) r1) (hn ▸ Nat.zero_le 7) fun _ _ => instr_consumes _ _
  obtain ⟨r', hd, hr'⟩ :=
    field_leaves (k := fun v r1 => .instr (row v) r1) (c := .instr (row b.toNat)) b hup fun r1 h1 => ⟨r1, rfl, h1⟩
  obtain ⟨hp, hn'⟩ := pulled_of_wholeBytes hn hc (congrArg (Decoded.rest r) hd) (ps := [b]) hb hr'
  exact ⟨r', hp, hn', by rw [step_element hh hbusy, stepElement_instr hfits (hf.trans hd)]⟩

theorem step_numLead {s : State} {b : Byte} {rest : List Byte} (hs : ready s .numLead) (hn : s.stream.brN = 0)
    (hb : s.stream.bytes = b :: rest) :
    ∃ r, Pulled [b] s.stream r ∧ r.brN = 0 ∧ step s = exec (leadOf b.toNat) (s.withStream r) := by
  have ⟨_, _, hpos, _⟩ := hs
  refine step_byteField hs ?_ hn hb
  rw [State.openElement, hpos, State.fetch, hpos]
  rfl

theorem step_numCont {s : State} {b : Byte} {rest : List Byte} (hs : ready s .numCont) (hn : s.stream.brN = 0)
    (hb : s.stream.bytes = b :: rest) :
    ∃ r, Pulled [b] s.stream r ∧ r.brN = 0 ∧ step s = exec (contOf b.toNat) (s.withStream r) := by
  have ⟨_, _, hpos, _⟩ := hs
  refine step_byteField hs ?_ hn hb
  rw [State.openElement, hpos, State.fetch, hpos]
  rfl

/-- After pulls the machine is ready at the position to which the sequencer has moved. -/
theorem ready_of_pulled {s : State} {p p' : Pos} {ps : List Byte} {r : Stream} {q : Seq} (hs : ready s p)
    (hp : Pulled ps s.stream r) (hq : q.pos = p') : ready { s.withStream r with seq := q } p' := by
  obtain ⟨hbusy, hh, -, hfits⟩ := hs
  obtain ⟨hbytes, -, hsrcPos, -⟩ := hp
  exact ⟨hbusy, hh, hq, sourceFits_of_pulls (t := { s.withStream r with seq := q }) hfits hbytes hsrcPos⟩

/-! ### The number field -/

/-- From `s`, one step for each byte of `ps` consumes just these and ends the number field with `FH_NUM = x`. -/
def ReadsNumber (ps : List Byte) (x : Nat) (s : State) : Prop :=
  ∃ t, stepsTo ps.length s t ∧ Pulled ps s.stream t.stream ∧ t.stream.brN = 0 ∧ t.seq.pos = .bsc ∧
    t = { s with hdr := { s.hdr with num := BitVec.ofNat 36 x }, src := t.src, dp := t.dp, seq := t.seq }

/-- The byte that completes the number. -/
theorem readsNumber_last {s : State} {b : Byte} {x : Nat} {r : Stream} (hp : Pulled [b] s.stream r) (hn : r.brN = 0)
    (hstep : step s = .next (withNumber (s.withStream r) (BitVec.ofNat 36 x))) : ReadsNumber [b] x s :=
  ⟨_, ⟨_, hstep, rfl⟩, hp, hn, rfl, rfl⟩

/-- A byte that more follow moves the sequencer only. -/
theorem readsNumber_cons {s : State} {b : Byte} {ps : List Byte} {x : Nat} {r : Stream} {q : Seq}
    (hp : Pulled [b] s.stream r) (hstep : step s = .next { s.withStream r with seq := q })
    (h : ReadsNumber ps x { s.withStream r with seq := q }) : ReadsNumber (b :: ps) x s := by
  obtain ⟨t, hsteps, hpull, hn, hpos, ht⟩ := h
  exact ⟨t, ⟨_, hstep, hsteps⟩, Pulled_trans hp hpull, hn, hpos, ht⟩

/-- The next six bits of `x` below those read so far. -/
theorem ofNat_next_payload (k x : Nat) :
    BitVec.ofNat 36 ((BitVec.ofNat 36 (x / 64 ^ (k + 1))).toNat * 64 + (BitVec.ofNat 6 (x / 64 ^ k % 64)).toNat) =
      BitVec.ofNat 36 (x / 64 ^ k) := by
  have hp : (BitVec.ofNat 6 (x / 64 ^ k % 64)).toNat = x / 64 ^ k % 64 :=
    toNat_ofNat_of_lt (Nat.mod_lt _ (by decide))
  rw [BitVec.ofNat_add, BitVec.ofNat_mul, ofNat_toNat_self, hp, ← BitVec.ofNat_mul, ← BitVec.ofNat_add, pow_succ,
    ← Nat.div_div_eq_div_mul, Nat.div_add_mod']

/-- A step over a continuation byte appends its six bits (R161). -/
theorem step_contByte {s : State} {y : Nat} {rest : List Byte} (hy : y < 64) (hs : ready s .numCont)
    (hn : s.stream.brN = 0) (hb : s.stream.bytes = BitVec.ofNat 8 (0x80 + y) :: rest) :
    ∃ r, Pulled [BitVec.ofNat 8 (0x80 + y)] s.stream r ∧ r.brN = 0 ∧
      step s = exec (.u8Cont (BitVec.ofNat 6 y)) (s.withStream r) := by
  obtain ⟨r, hp, hr, hstep⟩ := step_numCont hs hn hb
  rw [toNat_ofNat_of_lt (show 0x80 + y < 2 ^ 8 by omega), contOf_of_lt hy] at hstep
  exact ⟨r, hp, hr, hstep⟩

/-- The bits of `x` above the `k + 1` continuation bytes are read, and those bytes come next: they complete the number. -/
theorem readsNumber_contBytes (k x : Nat) {s : State} {rest : List Byte} (hs : ready s .numCont)
    (hn : s.stream.brN = 0) (hb : s.stream.bytes = contBytes (k + 1) x ++ rest) (hleft : s.seq.numLeft = k + 1)
    (hnum : s.seq.num = BitVec.ofNat 36 (x / 64 ^ (k + 1))) : ReadsNumber (contBytes (k + 1) x) x s := by
  induction k generalizing s with
  | zero =>
    obtain ⟨r, hp, hr, hstep⟩ := step_contByte (Nat.mod_lt _ (by decide)) hs hn hb
    obtain ⟨hlast, -⟩ := Proofs.utf8ContinuationRows (s.withStream r)
    rw [hlast _ hleft, State.withStream_seq, hnum, ofNat_next_payload 0 x, pow_zero, Nat.div_one] at hstep
    exact readsNumber_last hp hr hstep
  | succ k ih =>
    obtain ⟨r, hp, hr, hstep⟩ := step_contByte (Nat.mod_lt _ (by decide)) hs hn hb
    obtain ⟨-, hmore, -⟩ := Proofs.utf8ContinuationRows (s.withStream r)
    have hleft' : 2 ≤ (s.withStream r).seq.numLeft := by
      rw [State.withStream_seq]
      omega
    rw [hmore _ hleft', State.withStream_seq, hnum, ofNat_next_payload (k + 1) x] at hstep
    have ⟨_, _, hpos, _⟩ := hs
    exact readsNumber_cons hp hstep
      (ih (ready_of_pulled hs hp hpos) hr (bytes_of_pulled_cons hp hb) (Nat.sub_eq_of_eq_add hleft) rfl)

/-- A lead byte that is the whole number. -/
theorem readsNumber_single {x : Nat} {s : State} {rest : List Byte} (hx : x < 2 ^ 7) (hs : ready s .numLead)
    (hn : s.stream.brN = 0) (hb : s.stream.bytes = BitVec.ofNat 8 x :: rest) :
    ReadsNumber [BitVec.ofNat 8 x] x s := by
  obtain ⟨r, hp, hr, hstep⟩ := step_numLead hs hn hb
  rw [toNat_ofNat_of_lt (hx.trans (by decide)), exec_leadOf_single hx] at hstep
  exact readsNumber_last hp hr hstep

/-- A lead byte and the `k` continuation bytes it announces. -/
theorem readsNumber_leadBytes {k x : Nat} {s : State} {rest : List Byte} (hk : 1 ≤ k ∧ k ≤ 6)
    (hx : x / 64 ^ k < 2 ^ (6 - k)) (hs : ready s .numLead) (hn : s.stream.brN = 0)
    (hb : s.stream.bytes = BitVec.ofNat 8 (256 - 2 ^ (7 - k) + x / 64 ^ k) :: contBytes k x ++ rest) :
    ReadsNumber (BitVec.ofNat 8 (256 - 2 ^ (7 - k) + x / 64 ^ k) :: contBytes k x) x s := by
  obtain ⟨r, hp, hr, hstep⟩ := step_numLead hs hn hb
  rw [toNat_ofNat_of_lt (leadByte_lt hk hx), exec_leadOf hk hx] at hstep
  obtain ⟨j, rfl⟩ := Nat.exists_eq_add_of_le' hk.1
  exact readsNumber_cons hp hstep
    (readsNumber_contBytes j x (ready_of_pulled hs hp rfl) hr (bytes_of_pulled_cons hp hb) rfl rfl)

end Sys2Proof.Machine

namespace Sys2Proof.Proofs

open Sys2Proof.Machine Sys2Proof.Claims

/-- Settles O26: by the cases of the shortest form; the continuation bytes by induction on their number. -/
theorem utf8IsInvertedByDecoding : Obligations.Utf8IsInvertedByDecoding := by
  unfold Obligations.Utf8IsInvertedByDecoding
  intro s x rest hx hs hn hb
  change ReadsNumber (utf8Bytes x) x s
  obtain ⟨h7, he⟩ | ⟨k, hk, hlead, he⟩ := utf8Bytes_cases hx <;> rw [he] at hb ⊢
  · exact readsNumber_single h7 hs hn hb
  · exact readsNumber_leadBytes hk hlead hs hn hb

end Sys2Proof.Proofs
end

section
/-! PROOFS. The algebra of the CRC units: a shift of a feedback register loses nothing, so a register comes to 0, or to
what a short number shifts to, only from where it must. -/

namespace Sys2Proof.Machine

/-! ### Feedback shift registers -/

/-- One shift of a register of `w + 1` bits with the low coefficients `poly` of its polynomial (the loop bodies of R171
and R173). -/
def feedbackShift {w : Nat} (poly c : BitVec (w + 1)) : BitVec (w + 1) :=
  if c.getLsbD w then (c <<< 1) ^^^ poly else c <<< 1

theorem crc8Shift_eq_feedbackShift : crc8Shift = feedbackShift 0x07#8 := rfl

theorem crc16Shift_eq_feedbackShift : crc16Shift = feedbackShift 0x8005#16 := rfl

/-- The bit shifted in is the bit shifted out, where the polynomial has the coefficient 1. -/
theorem feedbackShift_getLsbD_zero {w : Nat} {poly : BitVec (w + 1)} (hp : poly.getLsbD 0 = true) (c : BitVec (w + 1)) :
    (feedbackShift poly c).getLsbD 0 = c.getLsbD w := by
  unfold feedbackShift
  split <;> simp_all

/-- Without its top bit a number is what its double says. -/
theorem eq_of_shiftLeft_one_eq {w : Nat} {a b : BitVec (w + 1)} (htop : a.getLsbD w = b.getLsbD w)
    (h : a <<< 1 = b <<< 1) : a = b := by
  refine BitVec.eq_of_getLsbD_eq fun i hi => ?_
  obtain hw | rfl : i < w ∨ i = w := by omega
  · have hbit := congrArg (·.getLsbD (i + 1)) h
    simpa [hw, ← BitVec.getLsbD_eq_getElem] using hbit
  · exact htop

/-- A shift can be undone: the low bit tells whether the polynomial was fed back. -/
theorem feedbackShift_injective {w : Nat} {poly : BitVec (w + 1)} (hp : poly.getLsbD 0 = true) :
    Function.Injective (feedbackShift poly) := by
  intro a b h
  have htop : a.getLsbD w = b.getLsbD w := by
    rw [← feedbackShift_getLsbD_zero hp, h, feedbackShift_getLsbD_zero hp]
  refine eq_of_shiftLeft_one_eq htop ?_
  unfold feedbackShift at h
  rw [htop] at h
  split at h
  · exact (BitVec.xor_left_inj poly).1 h
  · exact h

/-- While no bit reaches the top, nothing is fed back. -/
theorem iterate_feedbackShift_of_lt {w : Nat} (poly : BitVec (w + 1)) {n : Nat} {c : BitVec (w + 1)}
    (h : c.toNat * 2 ^ n < 2 ^ (w + 1)) : (feedbackShift poly)^[n] c = c <<< n := by
  induction n with
  | zero => simp
  | succ n ih =>
    have hlt : c.toNat * 2 ^ n < 2 ^ w := by
      rw [pow_succ, pow_succ, ← Nat.mul_assoc] at h
      exact Nat.lt_of_mul_lt_mul_right h
    have hval : (c <<< n).toNat = c.toNat * 2 ^ n := by
      rw [BitVec.toNat_shiftLeft, Nat.shiftLeft_eq, Nat.mod_eq_of_lt (hlt.trans (Nat.pow_lt_pow_succ (by decide)))]
    have htop : (c <<< n).getLsbD w = false := by
      rw [BitVec.getLsbD, hval, Nat.testBit_lt_two_pow hlt]
    rw [Function.iterate_succ_apply', ih (hlt.trans (Nat.pow_lt_pow_succ (by decide))), feedbackShift, htop,
      BitVec.shiftLeft_add]
    rfl

/-! ### The updates -/

theorem crc8Shift_injective : Function.Injective crc8Shift := by
  rw [crc8Shift_eq_feedbackShift]
  exact feedbackShift_injective rfl

theorem crc16Shift_injective : Function.Injective crc16Shift := by
  rw [crc16Shift_eq_feedbackShift]
  exact feedbackShift_injective rfl

/-- The CRC-8 comes to 0 over just the byte it holds. -/
theorem crc8Update_eq_zero_iff (c : BitVec 8) (b : Byte) : crc8Update c b = 0 ↔ b = c := by
  have hzero : crc8Shift^[8] 0 = 0 := rfl
  calc crc8Update c b = 0 ↔ crc8Shift^[8] (c ^^^ b) = crc8Shift^[8] 0 := by rw [hzero]; rfl
    _ ↔ c ^^^ b = 0 := (crc8Shift_injective.iterate 8).eq_iff
    _ ↔ b = c := BitVec.xor_eq_zero_iff.trans eq_comm

/-- A byte in the low half of the CRC-16 register shifts to the high half. -/
theorem iterate_crc16Shift_low (b : Byte) : crc16Shift^[8] (b.zeroExtend 16) = b.zeroExtend 16 <<< 8 := by
  rw [crc16Shift_eq_feedbackShift]
  refine iterate_feedbackShift_of_lt 0x8005#16 ?_
  have hb := b.isLt
  have hval : (b.zeroExtend 16).toNat = b.toNat := BitVec.toNat_setWidth_of_le (by decide)
  omega

/-- Two bytes in a register of 16 bits, the high one first (R300). -/
theorem append_eq_xor (hi lo : Byte) : hi ++ lo = lo.zeroExtend 16 ^^^ (hi.zeroExtend 16 <<< 8) := by
  refine BitVec.eq_of_getLsbD_eq fun i hi16 => ?_
  rw [BitVec.getLsbD_append, BitVec.getLsbD_xor, BitVec.getLsbD_shiftLeft]
  by_cases h : i < 8
  · simp [h, hi16]
  · have hlo : lo.getLsbD i = false := BitVec.getLsbD_of_ge lo i (Nat.le_of_not_lt h)
    have hi8 : i - 8 < 16 := by omega
    simp [h, hi16, hlo, hi8]

/-- The CRC-16 comes to 0 over just the two bytes it holds, the high one first. -/
theorem crc16Update_crc16Update_eq_zero_iff (c : BitVec 16) (hi lo : Byte) :
    crc16Update (crc16Update c hi) lo = 0 ↔ c = hi ++ lo := by
  have hzero : crc16Shift^[8] 0 = 0 := rfl
  have hinj {a b : BitVec 16} : crc16Shift^[8] a = crc16Shift^[8] b ↔ a = b := (crc16Shift_injective.iterate 8).eq_iff
  calc crc16Update (crc16Update c hi) lo = 0
      ↔ crc16Shift^[8] (crc16Update c hi ^^^ (lo.zeroExtend 16 <<< 8)) = crc16Shift^[8] 0 := by rw [hzero]; rfl
    _ ↔ crc16Update c hi = lo.zeroExtend 16 <<< 8 := hinj.trans BitVec.xor_eq_zero_iff
    _ ↔ crc16Shift^[8] (c ^^^ (hi.zeroExtend 16 <<< 8)) = crc16Shift^[8] (lo.zeroExtend 16) := by
        rw [iterate_crc16Shift_low]; rfl
    _ ↔ c = hi ++ lo := by rw [hinj, append_eq_xor, xor_eq_iff_left_eq]

end Sys2Proof.Machine

namespace Sys2Proof.Proofs

open Sys2Proof.Machine Sys2Proof.Claims

/-- Settles O10: a shift of the register loses nothing, so only the byte it holds takes it to 0. -/
theorem crc8Laws : Obligations.Crc8Laws := by
  unfold Obligations.Crc8Laws
  refine ⟨rfl, fun bs b => ?_, fun _ => rfl, by decide +kernel⟩
  rw [crc8Of, List.foldl_append]
  exact crc8Update_eq_zero_iff _ b

/-- Settles O11: the same over two bytes: the low byte is what the register must hold in its high half before it. -/
theorem crc16Laws : Obligations.Crc16Laws := by
  unfold Obligations.Crc16Laws
  refine ⟨rfl, fun bs hi lo => ?_, fun _ => rfl, by decide +kernel⟩
  rw [crc16Of, List.foldl_append]
  refine (crc16Update_crc16Update_eq_zero_iff _ hi lo).trans ?_
  rw [← BitVec.toNat_inj, toNat_append_eq, eq_comm]
  rfl

end Sys2Proof.Proofs
end

section
/-! PROOFS. What the checksums of a frame cover: the elements of a NEXT take the header, the stored CRC-8, the subframes
and the footer one after another, and each part of the frame has its tees. -/

namespace Sys2Proof

open Sys2Proof.Machine

/-! ### A decoder that names every instruction -/

/-- Decoding did not end at a command code that names no command. -/
def Decoded.named : Decoded → Bool
  | .noCommand _ => false
  | _ => true

section Named

variable {r : Stream} {k : Nat → Stream → Decoded}

theorem field_named {n : Nat} (hk : ∀ v r1, (k v r1).named = true) : (field n r k).named = true := by
  unfold field
  split
  · exact hk _ _
  · rfl

theorem sizedField_named {n : Nat} (hk : ∀ v r1, (k v r1).named = true) : (sizedField n r k).named = true := by
  unfold sizedField
  split
  · exact field_named hk
  · rfl

theorem unaryField_named (hk : ∀ q r1, (k q r1).named = true) : (unaryField r k).named = true := by
  unfold unaryField
  split
  · exact hk _ _
  · rfl

theorem ite_named {c : Prop} [Decidable c] {d e : Decoded} (hd : d.named = true) (he : e.named = true) :
    (if c then d else e).named = true := by
  split <;> assumption

theorem decodeFh_named : (decodeFh r).named = true :=
  field_named fun _ _ => ite_named rfl <| field_named fun _ _ => ite_named rfl <| field_named fun _ _ =>
    field_named fun _ _ => field_named fun _ _ => field_named fun _ _ => field_named fun _ _ => field_named fun _ _ =>
    ite_named rfl rfl

theorem decodeCa_named (code : BitVec 4) : (decodeCa code r).named = true := by
  unfold decodeCa
  split <;> rfl

theorem decodeSsc_named (code : BitVec 3) : (decodeSsc code r).named = true := by
  unfold decodeSsc
  split <;> rfl

theorem decodeBsc_named (code : BitVec 4) : (decodeBsc code r).named = true := by
  unfold decodeBsc
  split
  case h_7 | h_8 => exact field_named fun _ _ => rfl
  all_goals rfl

theorem decodeRc_named (code : BitVec 4) : (decodeRc code r).named = true := by
  unfold decodeRc
  split
  case h_13 | h_14 | h_15 => exact field_named fun _ _ => rfl
  all_goals rfl

theorem decodeType_named (pad : BitVec 1) (t : BitVec 6) : (decodeType pad t r).named = true := by
  have flag : ∀ row : BitVec 1 → Instr, (field 1 r fun v r1 => .instr (row (BitVec.ofNat 1 v)) r1).named = true :=
    fun _ => field_named fun _ _ => rfl
  exact ite_named (flag _) <| ite_named (flag _) <| ite_named rfl <| ite_named rfl <| ite_named (flag _) <|
    ite_named (flag _) <| ite_named (flag _) <| ite_named (flag _) <| ite_named (flag _) <| ite_named rfl <|
    ite_named rfl <| ite_named rfl (flag _)

theorem decodeFt_named : (decodeFt r).named = true := by
  unfold decodeFt
  split
  · rfl
  · split <;> rfl

/-- Only a command code can name nothing. -/
theorem decode_named {strict : Bool} {f : Format} (hf : f ≠ .cmd) : (decode strict f r).named = true := by
  cases f with
  | cmd => exact absurd rfl hf
  | fh => exact decodeFh_named
  | ca => exact field_named fun _ _ => decodeCa_named _
  | ssc => exact field_named fun _ _ => decodeSsc_named _
  | bsc => exact field_named fun _ _ => decodeBsc_named _
  | rc => exact field_named fun _ _ => decodeRc_named _
  | u8 | u8cont | crc8 | part4 | part5 => exact field_named fun _ _ => rfl
  | sfh => exact field_named fun _ _ => field_named fun _ _ => ite_named rfl (decodeType_named _ _)
  | wsuffix => exact unaryField_named fun _ _ => rfl
  | smp | coef => exact sizedField_named fun _ _ => rfl
  | lph => exact field_named fun _ _ => ite_named rfl <| field_named fun _ _ => ite_named rfl rfl
  | res => exact field_named fun _ _ => ite_named rfl <| field_named fun _ _ => ite_named rfl rfl
  | rice => exact unaryField_named fun _ _ => ite_named rfl <| sizedField_named fun _ _ => rfl
  | pad => rfl
  | ft => exact decodeFt_named

end Named

/-! ### Elements of whole bytes -/

/-- If `d` is an instruction, the stream behind it stands on a byte boundary. -/
def Decoded.EndsAligned (d : Decoded) : Prop := ∀ i r, d = .instr i r → r.brN = 0

section EndsAligned

variable {r : Stream} {k : Nat → Stream → Decoded}

theorem instr_endsAligned {i : Instr} (hr : r.brN = 0) : (Decoded.instr i r).EndsAligned := by
  intro j r' h
  cases h
  exact hr

theorem illegal_endsAligned (e : ErrKind) : (Decoded.illegal e r).EndsAligned := fun _ _ h => nomatch h

theorem ite_endsAligned {c : Prop} [Decidable c] {d e : Decoded} (hd : d.EndsAligned) (he : e.EndsAligned) :
    (if c then d else e).EndsAligned := by
  split <;> assumption

/-- A field of `n` bits moves the cursor within its byte by `n` bits (R141). -/
theorem field_endsAligned {n : Nat} (hn : r.brN ≤ 7)
    (hk : ∀ v r1, r1.brN ≤ 7 → (r1.brN + n) % 8 = r.brN → (k v r1).EndsAligned) : (field n r k).EndsAligned := by
  unfold field
  split
  · next v r1 hr =>
    obtain ⟨hn1, -, hcount, -⟩ := read_needed hn hr
    exact hk v r1 hn1 (by omega)
  · exact fun _ _ h => nomatch h

/-- A field of whole bytes that is the rest of its element. -/
theorem bytesField_endsAligned {n : Nat} {row : Nat → Instr} (h8 : n % 8 = 0) (hr : r.brN = 0) :
    (field n r fun v r1 => .instr (row v) r1).EndsAligned :=
  field_endsAligned (hr ▸ Nat.zero_le 7) fun _ _ _ _ => instr_endsAligned (by omega)

theorem decodeFh_endsAligned (hr : r.brN = 0) : (decodeFh r).EndsAligned :=
  field_endsAligned (hr ▸ Nat.zero_le 7) fun _ _ h1 _ => ite_endsAligned (illegal_endsAligned _) <|
    field_endsAligned h1 fun _ _ h2 _ => ite_endsAligned (illegal_endsAligned _) <|
    field_endsAligned h2 fun _ _ h3 _ => field_endsAligned h3 fun _ _ h4 _ => field_endsAligned h4 fun _ _ h5 _ =>
    field_endsAligned h5 fun _ _ h6 _ => field_endsAligned h6 fun _ _ h7 _ => field_endsAligned h7 fun _ _ _ _ =>
    ite_endsAligned (illegal_endsAligned _) (instr_endsAligned (by omega))

theorem decodeCa_endsAligned (code : BitVec 4) (hr : r.brN = 0) : (decodeCa code r).EndsAligned := by
  unfold decodeCa
  split <;> exact instr_endsAligned hr

theorem decodeSsc_endsAligned (code : BitVec 3) (hr : r.brN = 0) : (decodeSsc code r).EndsAligned := by
  unfold decodeSsc
  split <;> exact instr_endsAligned hr

theorem decodeBsc_endsAligned (code : BitVec 4) (hr : r.brN = 0) : (decodeBsc code r).EndsAligned := by
  unfold decodeBsc
  split
  case h_7 | h_8 => exact bytesField_endsAligned rfl hr
  all_goals exact instr_endsAligned hr

theorem decodeRc_endsAligned (code : BitVec 4) (hr : r.brN = 0) : (decodeRc code r).EndsAligned := by
  unfold decodeRc
  split
  case h_13 | h_14 | h_15 => exact bytesField_endsAligned rfl hr
  all_goals exact instr_endsAligned hr

end EndsAligned

/-! ### The parts of a frame -/

/-- The parts of a frame that the checksums tell apart; a host command belongs to none. -/
inductive FramePart where
  | command
  | start
  | header
  | body
  | footer

/-- The part in which an element of a format stands (R304). -/
def Format.framePart : Format → FramePart
  | .cmd => .command
  | .fh => .start
  | .ca | .ssc | .u8 | .u8cont | .bsc | .rc | .crc8 => .header
  | .sfh | .wsuffix | .smp _ | .lph | .coef _ | .res | .part4 | .part5 | .rice _ | .pad => .body
  | .ft => .footer

/-- The part of the frame at a position (R304). -/
def Machine.Pos.framePart : Pos → FramePart
  | .frame => .start
  | .ca | .ssc | .numLead | .numCont | .bsc | .rc | .crc8 => .header
  | .subHdr | .wsuffix | .smp | .lph | .coef | .res | .part | .rice | .pad => .body
  | .foot => .footer

end Sys2Proof

namespace Sys2Proof.Machine

open Sys2Proof.Claims

/-- The position's format is no host command. -/
theorem fetch_named (s : State) : s.fetch.named = true := by
  unfold State.fetch
  cases s.seq.pos with
  | ca => exact decodeCa_named _
  | ssc => exact decodeSsc_named _
  | bsc => exact decodeBsc_named _
  | rc => exact decodeRc_named _
  | part =>
    dsimp only
    split <;> exact decode_named nofun
  | frame | numLead | numCont | crc8 | subHdr | wsuffix | smp | lph | coef | res | rice | pad | foot =>
    exact decode_named nofun

theorem framePart_format (s : State) : s.format.framePart = s.seq.pos.framePart := by
  unfold State.format
  cases s.seq.pos with
  | part =>
    dsimp only
    split <;> rfl
  | frame | ca | ssc | numLead | numCont | bsc | rc | crc8 | subHdr | wsuffix | smp | lph | coef | res | rice | pad
  | foot => rfl

/-- `t` is a fault, or goes on from `s` within the part `p`, with the stream and the stored CRC-8 as they were. -/
def GoesOn (p : FramePart) (s t : State) : Prop :=
  t.status = .fault ∨
    (t.status = s.status ∧ t.seq.pos.framePart = p ∧ t.stream = s.stream ∧ t.hdr.crc8 = s.hdr.crc8)

theorem goesOn_raise (p : FramePart) (s : State) (k : ErrKind) (info : BitVec 32) : GoesOn p s (s.raise k info) :=
  .inl rfl

/-! ### Within the header -/

theorem goesOn_channelAssignment (s : State) (ca : BitVec 4) : GoesOn .header s (s.channelAssignment ca) := by
  unfold State.channelAssignment
  split
  · exact goesOn_raise _ s _ _
  · exact .inr ⟨rfl, rfl, rfl, rfl⟩

theorem goesOn_utf8Lead (s : State) (extra : Nat) (v : BitVec 36) : GoesOn .header s (s.utf8Lead extra v) := by
  unfold State.utf8Lead
  split <;> exact .inr ⟨rfl, rfl, rfl, rfl⟩

theorem goesOn_utf8Cont {s : State} (hs : s.seq.pos.framePart = .header) (payload : BitVec 6) :
    GoesOn .header s (s.utf8Cont payload) := by
  unfold State.utf8Cont
  dsimp only
  split
  · exact .inr ⟨rfl, rfl, rfl, rfl⟩
  · exact .inr ⟨rfl, hs, rfl, rfl⟩

/-- Each element of the header between the fixed part and the CRC-8 is followed by another one of the header (R185). -/
theorem exec_goesOn_header {i : Instr} {s t : State} (hs : s.seq.pos.framePart = .header)
    (hi : i.format.framePart = .header) (hne : i.format ≠ .crc8) (h : exec i s = .next t) : GoesOn .header s t := by
  cases i with
  | ca0 | ca1 | ca2 | ca3 | ca4 | ca5 | ca6 | ca7 | ca8 | ca9 | ca10 | ca11 | ca12 | ca13 | ca14 | ca15 =>
    cases h
    exact goesOn_channelAssignment s _
  | ssc0 | ssc1 | ssc2 | ssc4 | ssc5 | ssc6 | bsc1 | bsc2 | bsc3 | bsc4 | bsc5 | bsc6 | bsc7 | bsc8 | bsc9 | bsc10
  | bsc11 | bsc12 | bsc13 | bsc14 | bsc15 | rc0 | rc1 | rc2 | rc3 | rc4 | rc5 | rc6 | rc7 | rc8 | rc9 | rc10 | rc11
  | rc12 | rc13 | rc14 =>
    cases h
    exact .inr ⟨rfl, rfl, rfl, rfl⟩
  | u8Lead1 | u8Lead2 | u8Lead3 | u8Lead4 | u8Lead5 | u8Lead6 | u8Lead7 =>
    cases h
    exact goesOn_utf8Lead s _ _
  | u8Cont =>
    cases h
    exact goesOn_utf8Cont hs _
  | ssc3 | ssc7 | u8BadLead1 | u8BadLead8 | u8BadCont0 | u8BadCont3 | bsc0 | rc15 =>
    cases h
    exact goesOn_raise _ s _ _
  | crc8 => exact absurd rfl hne
  | _ => cases hi

/-! ### Within the subframes -/

theorem goesOn_gotoSubframe (s : State) (c : Nat) : GoesOn .body s (s.gotoSubframe c) := by
  refine .inr ⟨rfl, ?_, rfl, rfl⟩
  rw [State.gotoSubframe_seq]
  dsimp only
  split <;> rfl

theorem goesOn_finishSubframe (s : State) : GoesOn .body s s.finishSubframe := goesOn_gotoSubframe _ _

theorem goesOn_reconstruct (s : State) : GoesOn .body s s.reconstruct := by
  obtain ⟨f, x, h⟩ := reconstruct_eq_finish s
  rw [h]
  exact goesOn_finishSubframe _

theorem goesOn_nextPartition (s : State) : GoesOn .body s s.nextPartition := by
  obtain ⟨-, h⟩ | ⟨-, h⟩ := nextPartition_cases s <;> rw [h]
  · exact .inr ⟨rfl, rfl, rfl, rfl⟩
  · exact goesOn_reconstruct s

theorem goesOn_startBody (s : State) : GoesOn .body s s.startBody := by
  unfold State.startBody
  dsimp only
  split
  case h_1 | h_4 => exact .inr ⟨rfl, rfl, rfl, rfl⟩
  case h_2 =>
    split
    · exact goesOn_finishSubframe _
    · exact .inr ⟨rfl, rfl, rfl, rfl⟩
  case h_3 =>
    refine .inr ⟨rfl, ?_, rfl, rfl⟩
    unfold State.gotoIdx
    dsimp only
    split <;> rfl

theorem goesOn_acceptHeader (s : State) (kind : SubKind) (order : BitVec 6) (w : Nat) :
    GoesOn .body s (s.acceptHeader kind order w) := by
  obtain ⟨-, h⟩ | ⟨-, h⟩ := acceptHeader_cases s kind order w <;> rw [h]
  · exact goesOn_raise _ s _ _
  · exact goesOn_startBody _

theorem goesOn_subframeHeader (s : State) (pad : BitVec 1) (t : BitVec 6) (wflag : BitVec 1) :
    GoesOn .body s (s.subframeHeader pad t wflag) := by
  unfold State.subframeHeader
  split
  · exact goesOn_raise _ s _ _
  · split
    · exact goesOn_raise _ s _ _
    · split
      · exact goesOn_acceptHeader s _ _ _
      · exact .inr ⟨rfl, rfl, rfl, rfl⟩

theorem goesOn_sample (s : State) (v : Word) : GoesOn .body s (s.sample v) := by
  unfold State.sample
  dsimp only
  split
  · exact goesOn_finishSubframe _
  · split
    · exact .inr ⟨rfl, rfl, rfl, rfl⟩
    · exact goesOn_finishSubframe _
  all_goals split <;> exact .inr ⟨rfl, rfl, rfl, rfl⟩

theorem goesOn_lpcHeader (s : State) (prec : BitVec 4) (shift : BitVec 5) :
    GoesOn .body s (s.lpcHeader prec shift) := by
  unfold State.lpcHeader
  split
  · exact goesOn_raise _ s _ _
  · split
    · exact goesOn_raise _ s _ _
    · exact .inr ⟨rfl, rfl, rfl, rfl⟩

theorem goesOn_coefficient (s : State) (v : Word) : GoesOn .body s (s.coefficient v) := by
  unfold State.coefficient
  dsimp only
  split <;> exact .inr ⟨rfl, rfl, rfl, rfl⟩

theorem goesOn_residualHeader (s : State) (method : BitVec 2) (porder : BitVec 4) :
    GoesOn .body s (s.residualHeader method porder) := by
  unfold State.residualHeader
  split
  · exact goesOn_raise _ s _ _
  · split
    · exact goesOn_raise _ s _ _
    · exact .inr ⟨rfl, rfl, rfl, rfl⟩

theorem goesOn_partition (s : State) (mBits : Nat) (m : BitVec 5) : GoesOn .body s (s.partition mBits m) := by
  unfold State.partition
  dsimp only
  split
  · exact goesOn_raise _ s _ _
  · split
    · exact goesOn_raise _ s _ _
    · split
      · exact goesOn_nextPartition _
      · exact .inr ⟨rfl, rfl, rfl, rfl⟩

theorem goesOn_residual {s : State} (hs : s.seq.pos.framePart = .body) (v : Word) : GoesOn .body s (s.residual v) := by
  unfold State.residual
  dsimp only
  split
  · exact goesOn_nextPartition _
  · exact .inr ⟨rfl, hs, rfl, rfl⟩

/-- Each element of the subframes is followed by another one of them or by the padding (R298, R299). -/
theorem exec_goesOn_body {i : Instr} {s t : State} (hs : s.seq.pos.framePart = .body) (hi : i.format.framePart = .body)
    (hne : i.format ≠ .pad) (h : exec i s = .next t) : GoesOn .body s t := by
  cases i with
  | subConstant | subVerbatim | subFixed0 | subFixed1 | subFixed2 | subFixed3 | subFixed4 | subLpc | subRsvd00001x
  | subRsvd0001xx | subRsvd001101 | subRsvd00111x | subRsvd01xxxx =>
    cases h
    exact goesOn_subframeHeader s _ _ _
  | subBadPad =>
    cases h
    exact goesOn_raise _ s _ _
  | wsuffix =>
    cases h
    exact goesOn_acceptHeader s _ _ _
  | smp =>
    cases h
    exact goesOn_sample s _
  | lph | lphBadPrec | lphBadShift =>
    cases h
    exact goesOn_lpcHeader s _ _
  | coef =>
    cases h
    exact goesOn_coefficient s _
  | resRice4 | resRice5 | resBadMethod =>
    cases h
    exact goesOn_residualHeader s _ _
  | part4 | part4Esc | part5 | part5Esc =>
    cases h
    exact goesOn_partition s _ _
  | rice =>
    cases h
    exact goesOn_residual hs _
  | padbits => exact absurd rfl hne
  | _ => cases hi

/-! ### What an element reads -/

theorem sourceFits_of_stepElement {s t : State} (h : stepElement s = .next t) : s.sourceFits = true := by
  by_contra hfits
  rw [stepElement, if_neg hfits] at h
  cases h

theorem endOfInput_status (first : Bool) (s : State) :
    (s.endOfInput first).status = .fault ∨ (s.endOfInput first).status = .eos := by
  unfold State.endOfInput
  split
  · exact .inl rfl
  · split
    · exact .inr rfl
    · exact .inl rfl

theorem format_openElement (s : State) : s.openElement.format = s.format := by
  unfold State.openElement
  split <;> rfl

/-- The element at the position of `s`, once opened, is read as the instruction `i` by pulling `ps`, which leads to the
stream `r`. -/
structure Fetches (s : State) (ps : List Byte) (i : Instr) (r : Stream) : Prop where
  fetch : s.openElement.fetch = .instr i r
  pulled : Pulled ps s.openElement.stream r
  format : i.format = s.format

/-- All one element of a NEXT can do: the instruction it is read as is executed, or the NEXT ends without DONE. -/
theorem stepElement_inv {s t : State} (hn : s.dp.brN ≤ 7) (hs : s.sampleOk) (h : stepElement s = .next t) :
    (∃ ps i r, Fetches s ps i r ∧ exec i (s.withStream r) = .next t) ∨ t.status = .fault ∨ t.status = .eos := by
  have hopen : s.openElement.stream.brN ≤ 7 := by simpa using hn
  obtain ⟨ps, hp, -⟩ := rest_pulled hopen (fetch_consumes s.openElement hopen)
  have ha := fetch_answers (sampleOk_fetched hs s.openElement.stream)
  have hnamed := fetch_named s.openElement
  rw [State.withStream_self, format_openElement] at ha
  rw [stepElement, if_pos (sourceFits_of_stepElement h)] at h
  dsimp only at h
  split at h
  · next i r hf =>
    rw [hf] at hp ha
    rw [openElement_withStream] at h
    exact .inl ⟨ps, i, r, ⟨hf, hp, ha⟩, h⟩
  · cases h
    exact .inr (.inl rfl)
  · cases h
    exact .inr (endOfInput_status _ _)
  · next hf =>
    rw [hf] at hnamed
    cases hnamed
  · cases h

/-- An element that switches no tee is read from the stream as it stands (R186, R199, R300). -/
theorem openElement_of_framePart {s : State} (hstart : s.seq.pos.framePart ≠ .start) (hcrc8 : s.seq.pos ≠ .crc8)
    (hfooter : s.seq.pos.framePart ≠ .footer) : s.openElement = s := by
  unfold State.openElement
  split
  · next h => exact absurd (congrArg Pos.framePart h) hstart
  · next h => exact absurd h hcrc8
  · next h => exact absurd (congrArg Pos.framePart h) hfooter
  · rfl

theorem stream_openElement_frame {s : State} (h : s.seq.pos = .frame) : s.openElement.stream = opened s.stream := by
  rw [State.openElement, h]
  rfl

theorem fetch_openElement_crc8 {s : State} (h : s.seq.pos = .crc8) :
    s.openElement.fetch =
      field 8 { s.stream with tee8 := false } fun v r => .instr (.crc8 (BitVec.ofNat 8 v)) r := by
  rw [State.openElement, h, State.fetch, h]
  rfl

theorem fetch_openElement_foot {s : State} (h : s.seq.pos = .foot) :
    s.openElement.fetch = decodeFt { s.stream with tee16 := false } := by
  rw [State.openElement, h, State.fetch, h]
  rfl

theorem fetch_openElement_pad {s : State} (h : s.seq.pos = .pad) : s.openElement.fetch = decodePad s.stream := by
  rw [State.openElement, h, State.fetch, h]
  rfl

/-- The header is made of whole bytes (R201). -/
theorem fetch_endsAligned {s : State} (hpart : s.seq.pos.framePart = .header) (hn : s.stream.brN = 0) :
    s.fetch.EndsAligned := by
  unfold State.fetch
  cases hp : s.seq.pos with
  | ca => exact decodeCa_endsAligned _ hn
  | ssc => exact decodeSsc_endsAligned _ hn
  | bsc => exact decodeBsc_endsAligned _ hn
  | rc => exact decodeRc_endsAligned _ hn
  | numLead | numCont | crc8 => exact bytesField_endsAligned rfl hn
  | frame | subHdr | wsuffix | smp | lph | coef | res | part | rice | pad | foot =>
    rw [hp] at hpart
    cases hpart

theorem pos_of_format_crc8 {s : State} (h : s.format = .crc8) : s.seq.pos = .crc8 := by
  unfold State.format at h
  split at h
  case h_8 hp => exact hp
  case h_15 => split at h <;> cases h
  all_goals cases h

theorem pos_of_format_pad {s : State} (h : s.format = .pad) : s.seq.pos = .pad := by
  unfold State.format at h
  split at h
  case h_17 hp => exact hp
  case h_15 => split at h <;> cases h
  all_goals cases h

theorem pos_of_framePart_start {p : Pos} (h : p.framePart = .start) : p = .frame := by
  cases p with
  | frame => rfl
  | _ => cases h

theorem pos_of_framePart_footer {p : Pos} (h : p.framePart = .footer) : p = .foot := by
  cases p with
  | foot => rfl
  | _ => cases h

/-- A byte read on a byte boundary is the byte pulled. -/
theorem read_byte {r r' : Stream} {v : Nat} (hn : r.brN = 0) (h : r.read 8 = .ok v r') :
    Pulled [BitVec.ofNat 8 v] r r' := by
  cases hb : r.bytes with
  | nil =>
    obtain ⟨r1, hstop, -⟩ := exists_read_stop (r := r) (n := 8) (by simp [Stream.bitsLeft, hn, hb])
    cases h.symm.trans hstop
  | cons b rest =>
    obtain ⟨-, hbytes⟩ := Proofs.readsSplit
    obtain ⟨r1, hread, -, -, hp⟩ := hbytes r [b] rest hn hb
    cases h.symm.trans hread
    rw [show bigEndian [b] = b.toNat by simp [bigEndian], ofNat_toNat_self]
    exact hp

/-! ### Pulls past a tee -/

section Tees

variable {ps : List Byte} {r r' : Stream}

theorem Pulled.bytes (h : Pulled ps r r') : r.bytes = ps ++ r'.bytes := by
  obtain ⟨hbytes, -⟩ := h
  exact hbytes

theorem Pulled.tee8 (h : Pulled ps r r') : r'.tee8 = r.tee8 := by
  obtain ⟨-, -, -, htee8, -⟩ := h
  exact htee8

theorem Pulled.tee16 (h : Pulled ps r r') : r'.tee16 = r.tee16 := by
  obtain ⟨-, -, -, -, htee16, -⟩ := h
  exact htee16

theorem Pulled.crc8_of_on (h : Pulled ps r r') (ht : r.tee8 = true) : r'.crc8 = ps.foldl crc8Update r.crc8 := by
  obtain ⟨-, -, -, -, -, hcrc8, -⟩ := h
  rw [hcrc8, if_pos ht]

theorem Pulled.crc8_of_off (h : Pulled ps r r') (ht : r.tee8 = false) : r'.crc8 = r.crc8 := by
  obtain ⟨-, -, -, -, -, hcrc8, -⟩ := h
  rw [hcrc8, if_neg (by rw [ht]; decide)]

theorem Pulled.crc16_of_on (h : Pulled ps r r') (ht : r.tee16 = true) : r'.crc16 = ps.foldl crc16Update r.crc16 := by
  obtain ⟨-, -, -, -, -, -, hcrc16⟩ := h
  rw [hcrc16, if_pos ht]

theorem Pulled.crc16_of_off (h : Pulled ps r r') (ht : r.tee16 = false) : r'.crc16 = r.crc16 := by
  obtain ⟨-, -, -, -, -, -, hcrc16⟩ := h
  rw [hcrc16, if_neg (by rw [ht]; decide)]

end Tees

/-! ### How far a NEXT has come -/

/-- From the stream `r₀` the bytes of a header were pulled, the stored CRC-8, which is theirs, and bytes after it, up to
`r` (R176, R177). -/
def BodyCovered (r₀ : Stream) (stored : Byte) (r : Stream) : Prop :=
  ∃ hs body r₁, Pulled hs (opened r₀) r₁ ∧ stored = r₁.crc8 ∧ Pulled (stored :: body) { r₁ with tee8 := false } r

/-- What a NEXT over the stream `r₀` has pulled where it is BUSY, by the part of the frame it stands in. -/
def State.Covered (r₀ : Stream) (s : State) : Prop :=
  match s.seq.pos.framePart with
  | .command => False
  | .start => s.stream = r₀ ∧ s.stream.brN = 0
  | .header => s.stream.brN = 0 ∧ ∃ hs, Pulled hs (opened r₀) s.stream
  | .body => BodyCovered r₀ s.hdr.crc8 s.stream
  | .footer => BodyCovered r₀ s.hdr.crc8 s.stream

/-- What a NEXT over the stream `r₀` that is DONE has pulled: up to the footer, and the footer, which matches. -/
def State.FrameCovered (r₀ : Stream) (t : State) : Prop :=
  ∃ r hi lo, BodyCovered r₀ t.hdr.crc8 r ∧ Pulled [hi, lo] { r with tee16 := false } t.stream ∧ t.ftCrc16 = hi ++ lo ∧
    (t.params.crc16Check = true → hi ++ lo = r.crc16)

/-- `Covered` while BUSY, `FrameCovered` in DONE. -/
def State.CoveredSoFar (r₀ : Stream) (s : State) : Prop :=
  (s.status = .busy → s.Covered r₀) ∧ (s.status = .done → s.FrameCovered r₀)

theorem coveredSoFar_of_stopped {r₀ : Stream} {t : State} (h : t.status = .fault ∨ t.status = .eos) :
    t.CoveredSoFar r₀ := by
  obtain h | h := h <;> exact ⟨fun hb => (nomatch h.symm.trans hb), fun hd => (nomatch h.symm.trans hd)⟩

theorem coveredSoFar_of_busy {r₀ : Stream} {t : State} (hb : t.status = .busy) (h : t.Covered r₀) :
    t.CoveredSoFar r₀ :=
  ⟨fun _ => h, fun hd => (nomatch hb.symm.trans hd)⟩

section Element

variable {r₀ : Stream} {s t : State}

theorem BodyCovered.pulled {c : Byte} {r r' : Stream} {ps : List Byte} (h : BodyCovered r₀ c r) (hp : Pulled ps r r') :
    BodyCovered r₀ c r' := by
  obtain ⟨hs, body, r₁, hhead, hc, hbody⟩ := h
  exact ⟨hs, body ++ ps, r₁, hhead, hc, Pulled_trans hbody hp⟩

theorem GoesOn.coveredSoFar_header {hs : List Byte} (hg : GoesOn .header s t) (hb : s.status = .busy)
    (hn : s.stream.brN = 0) (hp : Pulled hs (opened r₀) s.stream) : t.CoveredSoFar r₀ := by
  obtain hf | ⟨hst, hpart, hstream, -⟩ := hg
  · exact coveredSoFar_of_stopped (.inl hf)
  · refine coveredSoFar_of_busy (hst.trans hb) ?_
    rw [State.Covered, hpart, hstream]
    exact ⟨hn, hs, hp⟩

theorem GoesOn.coveredSoFar_body (hg : GoesOn .body s t) (hb : s.status = .busy)
    (hc : BodyCovered r₀ s.hdr.crc8 s.stream) : t.CoveredSoFar r₀ := by
  obtain hf | ⟨hst, hpart, hstream, hcrc8⟩ := hg
  · exact coveredSoFar_of_stopped (.inl hf)
  · refine coveredSoFar_of_busy (hst.trans hb) ?_
    rw [State.Covered, hpart, hstream, hcrc8]
    exact hc

variable {ps : List Byte} {i : Instr} {r : Stream}

/-- The fixed part, with the CRCs cleared and both tees on (R186). -/
theorem coveredSoFar_start (hb : s.status = .busy) (hpos : s.seq.pos = .frame) (hn : s.stream.brN = 0)
    (hf : Fetches s ps i r) (h : exec i (s.withStream r) = .next t) : t.CoveredSoFar s.stream := by
  obtain ⟨hfetch, hp, hi⟩ := hf
  rw [fetch_openElement_frame hpos] at hfetch
  rw [stream_openElement_frame hpos] at hp
  rw [State.format, hpos] at hi
  have hg : GoesOn .header (s.withStream r) t := by
    cases i with
    | frame =>
      cases h
      exact .inr ⟨rfl, rfl, rfl, rfl⟩
    | _ => cases hi
  exact hg.coveredSoFar_header hb (decodeFh_endsAligned (r := opened s.stream) hn i r hfetch) hp

/-- An element of the header between the fixed part and the CRC-8. -/
theorem coveredSoFar_header {hs : List Byte} (hb : s.status = .busy) (hpart : s.seq.pos.framePart = .header)
    (hne : s.seq.pos ≠ .crc8) (hn : s.stream.brN = 0) (hhead : Pulled hs (opened r₀) s.stream) (hf : Fetches s ps i r)
    (h : exec i (s.withStream r) = .next t) : t.CoveredSoFar r₀ := by
  obtain ⟨hfetch, hp, hi⟩ := hf
  rw [openElement_of_framePart (by rw [hpart]; nofun) hne (by rw [hpart]; nofun)] at hfetch hp
  have hg : GoesOn .header (s.withStream r) t :=
    exec_goesOn_header hpart (by rw [hi, framePart_format, hpart]) (fun hc => hne (pos_of_format_crc8 (hi ▸ hc))) h
  exact hg.coveredSoFar_header hb (fetch_endsAligned hpart hn i r hfetch) (Pulled_trans hhead hp)

/-- The stored CRC-8, read with the tee of the CRC-8 off: a NEXT goes on only where it matches (R199). -/
theorem coveredSoFar_crc8 {hs : List Byte} (hb : s.status = .busy) (hpos : s.seq.pos = .crc8) (hn : s.stream.brN = 0)
    (hhead : Pulled hs (opened r₀) s.stream) (hf : Fetches s ps i r) (h : exec i (s.withStream r) = .next t) :
    t.CoveredSoFar r₀ := by
  obtain ⟨hfetch, -, -⟩ := hf
  rw [fetch_openElement_crc8 hpos, field] at hfetch
  split at hfetch
  · next v r1 hread =>
    cases hfetch
    have hp := read_byte (r := { s.stream with tee8 := false }) hn hread
    cases h
    split
    · next hmatch =>
      have hstored : BitVec.ofNat 8 v = s.stream.crc8 := hmatch.trans (hp.crc8_of_off rfl)
      exact (goesOn_gotoSubframe _ 0).coveredSoFar_body hb ⟨hs, [], s.stream, hhead, hstored, hp⟩
    · exact coveredSoFar_of_stopped (.inl rfl)
  · cases hfetch

/-- An element of the subframes. -/
theorem coveredSoFar_body (hb : s.status = .busy) (hpart : s.seq.pos.framePart = .body) (hne : s.seq.pos ≠ .pad)
    (hc : BodyCovered r₀ s.hdr.crc8 s.stream) (hf : Fetches s ps i r) (h : exec i (s.withStream r) = .next t) :
    t.CoveredSoFar r₀ := by
  obtain ⟨-, hp, hi⟩ := hf
  have hcrc8 : s.seq.pos ≠ .crc8 := fun hpos => nomatch (congrArg Pos.framePart hpos).symm.trans hpart
  rw [openElement_of_framePart (by rw [hpart]; nofun) hcrc8 (by rw [hpart]; nofun)] at hp
  have hg : GoesOn .body (s.withStream r) t :=
    exec_goesOn_body hpart (by rw [hi, framePart_format, hpart]) (fun hc => hne (pos_of_format_pad (hi ▸ hc))) h
  exact hg.coveredSoFar_body hb (hc.pulled hp)

/-- The padding pulls nothing (R299). -/
theorem coveredSoFar_pad (hb : s.status = .busy) (hpos : s.seq.pos = .pad) (hc : BodyCovered r₀ s.hdr.crc8 s.stream)
    (hf : Fetches s ps i r) (h : exec i (s.withStream r) = .next t) : t.CoveredSoFar r₀ := by
  obtain ⟨hfetch, -, -⟩ := hf
  rw [fetch_openElement_pad hpos] at hfetch
  cases hfetch
  cases h
  exact coveredSoFar_of_busy hb (hc.pulled (Pulled_align (Pulled_refl s.stream)))

/-- The footer, read with the tee of the CRC-16 off: DONE only where it matches (R300, R301). -/
theorem coveredSoFar_foot (hpos : s.seq.pos = .foot) (hc : BodyCovered r₀ s.hdr.crc8 s.stream)
    (hf : Fetches s ps i r) (h : exec i (s.withStream r) = .next t) : t.CoveredSoFar r₀ := by
  obtain ⟨hfetch, -, -⟩ := hf
  rw [fetch_openElement_foot hpos, decodeFt] at hfetch
  split at hfetch
  · cases hfetch
  · next hi r1 hhigh =>
    split at hfetch
    · cases hfetch
    · next lo r2 hlow =>
      cases hfetch
      have hp : Pulled [hi, lo] { s.stream with tee16 := false } r :=
        Pulled_trans (Pulled_of_pull hhigh) (Pulled_of_pull hlow)
      cases h
      split
      · exact coveredSoFar_of_stopped (.inl rfl)
      · next hmatch =>
        refine ⟨nofun, fun _ => ⟨s.stream, hi, lo, hc, hp, rfl, fun hcheck => ?_⟩⟩
        exact by_contra fun hne => hmatch ⟨hcheck, fun he => hne (he.trans (hp.crc16_of_off rfl))⟩

/-- Each element of a NEXT extends what is covered. -/
theorem stepElement_coveredSoFar (hn : s.dp.brN ≤ 7) (hs : s.sampleOk) (hb : s.status = .busy) (hc : s.CoveredSoFar r₀)
    (h : stepElement s = .next t) : t.CoveredSoFar r₀ := by
  obtain ⟨ps, i, r, hf, hx⟩ | hstop := stepElement_inv hn hs h
  · obtain ⟨hcov, -⟩ := hc
    replace hcov := hcov hb
    unfold State.Covered at hcov
    generalize hpart : s.seq.pos.framePart = part at hcov
    cases part with
    | command => exact hcov.elim
    | start =>
      obtain ⟨rfl, hn0⟩ := hcov
      exact coveredSoFar_start hb (pos_of_framePart_start hpart) hn0 hf hx
    | header =>
      obtain ⟨hn0, hs, hhead⟩ := hcov
      by_cases hpos : s.seq.pos = .crc8
      · exact coveredSoFar_crc8 hb hpos hn0 hhead hf hx
      · exact coveredSoFar_header hb hpart hpos hn0 hhead hf hx
    | body =>
      by_cases hpos : s.seq.pos = .pad
      · exact coveredSoFar_pad hb hpos hcov hf hx
      · exact coveredSoFar_body hb hpart hpos hcov hf hx
    | footer => exact coveredSoFar_foot (pos_of_framePart_footer hpart) hcov hf hx
  · exact coveredSoFar_of_stopped hstop

end Element

/-! ### A whole NEXT -/

/-- Elements one after another extend what is covered. -/
theorem elementsTo_coveredSoFar {r₀ : Stream} {k : Nat} {s t : State} (hn : s.dp.brN ≤ 7) (hs : s.sampleOk)
    (hc : s.CoveredSoFar r₀) (h : elementsTo k s t) : t.CoveredSoFar r₀ := by
  induction k generalizing s with
  | zero => cases h; exact hc
  | succ k ih =>
    obtain ⟨hb, u, hu, hrest⟩ := h
    obtain ⟨hun, -, hus⟩ := stepElement_readable hb ⟨hn, sourceFits_of_stepElement hu, hs⟩ hu
    exact ih hun hus (stepElement_coveredSoFar hn hs hb hc hu) hrest

theorem acceptsNext_of_writable {s : State} (h : writable s) : s.status.acceptsNext = true := by
  obtain h | h | h := h <;> rw [h] <;> rfl

/-- Between frames the cursor stands on a byte boundary (R303). -/
theorem brN_of_writable {s : State} (hi : s.Inv) (hw : writable s) : s.dp.brN = 0 := by
  obtain ⟨-, -, -, -, hst, -⟩ := hi
  rw [State.statusOk] at hst
  obtain h | h | h := hw <;> rw [h] at hst
  case inr.inl =>
    obtain ⟨⟨hn, -⟩, -⟩ := hst
    exact hn
  all_goals
    obtain ⟨hn, -⟩ := hst
    exact hn

/-- Elements that run from the frame header to DONE have pulled a whole frame. -/
theorem runFrame_frameCovered {fuel : Nat} {s t : State} (h : runFrame fuel s = .next t) (hd : t.status = .done)
    (hb : s.status = .busy) (hpos : s.seq.pos = .frame) (hn : s.dp.brN = 0) : t.FrameCovered s.stream := by
  obtain ⟨k, -, helements, -⟩ := elementsTo_of_runFrame h
  have hsample : s.sampleOk := sampleOk_of_pos (by rw [hpos]; nofun)
  have hstart : s.Covered s.stream := by
    rw [State.Covered, hpos]
    exact ⟨rfl, hn⟩
  obtain ⟨-, hdone⟩ :=
    elementsTo_coveredSoFar (hn.trans_le (Nat.zero_le 7)) hsample (coveredSoFar_of_busy hb hstart) helements
  exact hdone hd

/-- A NEXT that ends in DONE has pulled a whole frame. -/
theorem step_frameCovered {s t : State} (hi : s.Inv) (hnext : issuesNext s) (h : step s = .next t)
    (hd : t.status = .done) : t.FrameCovered s.stream := by
  obtain ⟨hw, v, rest, hh, hv⟩ := hnext
  have hn : s.dp.brN = 0 := brN_of_writable hi hw
  rw [step_next hh hv (acceptsNext_of_writable hw)] at h
  exact (runFrame_frameCovered h hd rfl rfl hn :)

/-! ### Bytes and checksums of what is covered -/

theorem BodyCovered.checksums {r₀ r : Stream} {stored : Byte} (h : BodyCovered r₀ stored r) :
    ∃ hs body, r₀.bytes = hs ++ [stored] ++ body ++ r.bytes ∧ r.tee8 = false ∧ stored = crc8Of hs ∧
      r.crc8 = crc8Of hs ∧ r.crc16 = crc16Of (hs ++ [stored] ++ body) := by
  obtain ⟨hs, body, r₁, hhead, hstored, hbody⟩ := h
  have hcrc8 : r₁.crc8 = crc8Of hs := hhead.crc8_of_on rfl
  have hcrc16 : r₁.crc16 = crc16Of hs := hhead.crc16_of_on rfl
  have hbytes : r₀.bytes = hs ++ r₁.bytes := hhead.bytes
  have hbytes₁ : r₁.bytes = stored :: body ++ r.bytes := hbody.bytes
  refine ⟨hs, body, ?bytes, hbody.tee8, hstored.trans hcrc8, (hbody.crc8_of_off rfl).trans hcrc8, ?crc16⟩
  case bytes => simp [hbytes, hbytes₁]
  case crc16 =>
    calc r.crc16 = (stored :: body).foldl crc16Update r₁.crc16 := hbody.crc16_of_on hhead.tee16
      _ = crc16Of (hs ++ [stored] ++ body) := by rw [hcrc16]; simp [crc16Of]

theorem State.FrameCovered.checksums {r₀ : Stream} {t : State} (h : t.FrameCovered r₀) :
    ∃ (hs body : List Byte) (hi lo : Byte),
      r₀.bytes = hs ++ [t.hdr.crc8] ++ body ++ [hi, lo] ++ t.src.bytes ∧
        t.dp.crc8 = crc8Of hs ∧ t.hdr.crc8 = crc8Of hs ∧ t.dp.crc16 = crc16Of (hs ++ [t.hdr.crc8] ++ body) ∧
        t.ftCrc16 = hi ++ lo ∧ (t.params.crc16Check = true → hi ++ lo = crc16Of (hs ++ [t.hdr.crc8] ++ body)) := by
  obtain ⟨r, hi, lo, hbody, hfoot, hft, hcheck⟩ := h
  obtain ⟨hs, body, hbytes, htee8, hstored, hcrc8, hcrc16⟩ := hbody.checksums
  have hbytes' : r.bytes = [hi, lo] ++ t.src.bytes := hfoot.bytes
  refine ⟨hs, body, hi, lo, ?bytes, (hfoot.crc8_of_off htee8).trans hcrc8, hstored,
    (hfoot.crc16_of_off rfl).trans hcrc16, hft, fun hc => (hcheck hc).trans hcrc16⟩
  case bytes => rw [hbytes, hbytes', ← List.append_assoc]

end Sys2Proof.Machine

namespace Sys2Proof.Proofs

open Sys2Proof.Machine Sys2Proof.Claims

/-- Settles O58: the elements of the NEXT pull one part of the frame after another, each past its own tees. -/
theorem checksumsCoverTheFrame : Obligations.ChecksumsCoverTheFrame := by
  unfold Obligations.ChecksumsCoverTheFrame
  intro s t hi hnext hstep hd
  exact (step_frameCovered hi hnext hstep hd).checksums

/-- Settles O56: both checksums are over the bytes that O58 names. -/
theorem checksumsMatchInDone : Obligations.ChecksumsMatchInDone := by
  unfold Obligations.ChecksumsMatchInDone
  intro s t hi hnext hstep hd
  obtain ⟨hs, body, high, low, -, hcrc8, hstored, hcrc16, hft, hcheck⟩ := checksumsCoverTheFrame s t hi hnext hstep hd
  exact ⟨hstored.trans hcrc8.symm, fun hc => by rw [hft, hcheck hc, hcrc16]⟩

end Sys2Proof.Proofs
end

section
/-! PROOFS. The checks of the frame header: the sync code and the first reserved bit over the first two bytes, the
channel assignment, the CRC-8 field, and what is switched before an element. -/

namespace Sys2Proof.Machine

open Sys2Proof.Claims

/-! ### A read of known bits -/

/-- A field whose bits come next: its value, what it leaves, and what it pulls (R141). -/
theorem read_front {n : Nat} (v : BitVec n) {r : Stream} {bits : List Bool} (hn : r.brN ≤ 7)
    (h : r.upcoming = bvBits v ++ bits) :
    ∃ r', r.read n = .ok v.toNat r' ∧ r'.upcoming = bits ∧ Pulled (r.needed n) r r' ∧
      r'.brN + n = r.brN + 8 * ((n - r.brN + 7) / 8) ∧ LastPulled r r' := by
  obtain ⟨r', hr, hup⟩ := read_of_upcoming (length_msbBits n v.toNat) h
  rw [bitsValue_msbBits, Nat.mod_eq_of_lt v.isLt] at hr
  obtain ⟨-, hp, hcount, -⟩ := read_needed hn hr
  exact ⟨r', hr, hup, hp, hcount, readLoop_lastPulled hr⟩

/-- The last of the bytes pulled is the current one. -/
theorem LastPulled.brCur_eq {ps : List Byte} {b : Byte} {r r' : Stream} (h : LastPulled r r')
    (hp : Pulled (ps ++ [b]) r r') : r'.brCur = b := by
  obtain ⟨qs, hq, hcur⟩ := h
  obtain rfl : qs = ps ++ [b] := List.append_cancel_right (hq.symm.trans hp.bytes)
  rw [hcur]
  simp

/-! ### The sync code and the first reserved bit -/

/-- The 14 bits after which a header's sync is checked: two bytes are pulled, with two bits of the second unread
(R187). -/
theorem read_sync {r : Stream} {b0 b1 : Byte} {rest : List Byte} {bits : List Bool} {v : BitVec 14} (hn : r.brN = 0)
    (hb : r.bytes = b0 :: b1 :: rest) (h : r.upcoming = bvBits v ++ bits) :
    ∃ r', r.read 14 = .ok v.toNat r' ∧ r'.upcoming = bits ∧ Pulled [b0, b1] r r' ∧ r'.brN = 2 ∧ r'.brCur = b1 := by
  obtain ⟨r', hr, hup, hp, hcount, hlast⟩ := read_front v (hn ▸ Nat.zero_le 7) h
  rw [Stream.needed, hn, hb] at hp
  exact ⟨r', hr, hup, hp, by omega, hlast.brCur_eq (ps := [b0]) hp⟩

/-- The bits of two bytes to come, cut after the first `m`. -/
theorem upcoming_twoBytes {r : Stream} {b0 b1 : Byte} {rest : List Byte} (m n : Nat) (hmn : m + n = 16) (hn : r.brN = 0)
    (hb : r.bytes = b0 :: b1 :: rest) :
    r.upcoming =
      bvBits ((b0 ++ b1).extractLsb' n m) ++ (bvBits ((b0 ++ b1).extractLsb' 0 n) ++ rest.flatMap bvBits) := by
  have hw : bvBits (b0 ++ b1) = bvBits ((b0 ++ b1).extractLsb' n m) ++ bvBits ((b0 ++ b1).extractLsb' 0 n) := by
    rw [bvBits_extractLsb', bvBits_extractLsb', pow_zero, Nat.div_one, ← msbBits_append, hmn]
    rfl
  rw [upcoming_of_aligned hn, hb, List.flatMap_cons, List.flatMap_cons, ← List.append_assoc, ← bvBits_append, hw,
    List.append_assoc]

theorem decodeFh_badSync {r : Stream} {b0 b1 : Byte} {rest : List Byte} (hn : r.brN = 0)
    (hb : r.bytes = b0 :: b1 :: rest) (hs : (b0 ++ b1).extractLsb' 2 14 ≠ 0x3FFE) :
    ∃ r', decodeFh r = .illegal .badSync r' ∧ Pulled [b0, b1] r r' ∧ r'.brN = 2 ∧ r'.brCur = b1 := by
  obtain ⟨r', hr, -, hp, hn', hcur⟩ := read_sync hn hb (upcoming_twoBytes 14 2 rfl hn hb)
  refine ⟨r', ?_, hp, hn', hcur⟩
  rw [decodeFh, field, hr]
  exact if_pos fun h => hs (BitVec.eq_of_toNat_eq h)

theorem decodeFh_firstReserved {r : Stream} {b0 b1 : Byte} {rest : List Byte} (hn : r.brN = 0)
    (hb : r.bytes = b0 :: b1 :: rest) (hs : (b0 ++ b1).extractLsb' 1 15 = 0x7FFD) :
    ∃ r', decodeFh r = .illegal .badReserved r' ∧ Pulled [b0, b1] r r' ∧ r'.brN = 1 := by
  have hup := upcoming_twoBytes 15 1 rfl hn hb
  have hsync : bvBits (0x7FFD : BitVec 15) = bvBits 0x3FFE#14 ++ bvBits 1#1 := rfl
  rw [hs, hsync, List.append_assoc] at hup
  obtain ⟨r1, hr1, hup1, hp1, hn1, -⟩ := read_sync hn hb hup
  obtain ⟨r2, hr2, -, hp2, hcount, -⟩ := read_front 1#1 (by omega) hup1
  rw [Stream.needed, hn1] at hp2
  refine ⟨r2, ?_, Pulled_trans hp1 hp2, by omega⟩
  rw [decodeFh, field, hr1]
  dsimp only
  rw [if_neg (by decide), field, hr2]
  rfl

/-! ### The CRC-8 field -/

/-- The CRC-8 field, read past the tee that is off (R199). -/
theorem step_crc8 {s : State} {b : Byte} {rest : List Byte} (hs : ready s .crc8) (hn : s.stream.brN = 0)
    (hb : s.stream.bytes = b :: rest) :
    ∃ r, Pulled [b] { s.stream with tee8 := false } r ∧ r.brN = 0 ∧ step s = exec (.crc8 b) (s.withStream r) := by
  have ⟨_, _, hpos, _⟩ := hs
  have h := step_byteField hs (fetch_openElement_crc8 hpos) hn hb
  rwa [ofNat_toNat_self] at h

end Sys2Proof.Machine

namespace Sys2Proof.Proofs

open Sys2Proof.Machine Sys2Proof.Claims

/-- Settles O13: the three positions at which the datapath is switched, and the others. -/
theorem elementsOpen : Obligations.ElementsOpen := by
  unfold Obligations.ElementsOpen
  intro s
  unfold State.openElement
  cases s.seq.pos with
  | frame | crc8 | foot => rfl
  | ca | ssc | numLead | numCont | bsc | rc | subHdr | wsuffix | smp | lph | coef | res | part | rice | pad => rfl

/-- Settles O19: each code writes its row of R190 or raises. -/
theorem channelAssignmentRows : Obligations.ChannelAssignmentRows := by
  unfold Obligations.ChannelAssignmentRows
  refine fun s => ⟨fun e he => ?_, fun i hi => ?_⟩
  · simp only [channelRows, List.mem_cons, List.not_mem_nil, or_false] at he
    rcases he with rfl | rfl | rfl | rfl | rfl | rfl | rfl | rfl | rfl | rfl | rfl <;> rfl
  · simp only [List.mem_cons, List.not_mem_nil, or_false] at hi
    rcases hi with rfl | rfl | rfl | rfl | rfl <;> rfl

/-- Settles O17: the decoder stops at the first bits that are wrong, with the bytes of just these bits pulled. -/
theorem syncAndFirstReservedBit : Obligations.SyncAndFirstReservedBit := by
  unfold Obligations.SyncAndFirstReservedBit
  rintro s b0 b1 rest ⟨hb, hh, hpos, hfits⟩ hn hbytes
  have hfault {k : ErrKind} {r : Stream} (hd : decodeFh (opened s.stream) = .illegal k r) :
      step s = .next (faulted (s.withStream r) k 0) := by
    rw [← fetch_openElement_frame hpos] at hd
    rw [step_element hh hb, stepElement_illegal hfits hd]
    rfl
  refine ⟨fun hs => ?sync, fun hs => ?reserved⟩
  case sync =>
    obtain ⟨r, hd, hr⟩ := decodeFh_badSync (r := opened s.stream) hn hbytes hs
    exact ⟨r, hfault hd, hr⟩
  case reserved =>
    obtain ⟨r, hd, hr⟩ := decodeFh_firstReserved (r := opened s.stream) hn hbytes hs
    exact ⟨r, hfault hd, hr⟩

/-- Settles O25: the byte is read past the tee that is off, so `crc8` is still the expected value when it is
compared. -/
theorem headerChecksum : Obligations.HeaderChecksum := by
  unfold Obligations.HeaderChecksum
  refine ⟨fun _ _ => rfl, fun s b rest hs hn hbytes => ?_⟩
  obtain ⟨r, hp, hr, hstep⟩ := step_crc8 hs hn hbytes
  exact ⟨r, hp, hp.crc8_of_off rfl, hr, hstep⟩

end Sys2Proof.Proofs
end

section
/-! PROOFS. A header of legal fields: each element of R185 is accepted over its bytes, and between them the fixed part
is held. -/

namespace Sys2Proof.Machine

open Sys2Proof.Claims

/-! ### The fixed part is held -/

theorem channelAssignment_fix (s : State) (ca : BitVec 4) :
    (s.channelAssignment ca).status = .fault ∨ (s.channelAssignment ca).seq.fix = s.seq.fix := by
  unfold State.channelAssignment
  split
  · exact .inl rfl
  · exact .inr rfl

theorem utf8Lead_fix (s : State) (extra : Nat) (v : BitVec 36) : (s.utf8Lead extra v).seq.fix = s.seq.fix := by
  unfold State.utf8Lead
  split <;> rfl

theorem utf8Cont_fix (s : State) (payload : BitVec 6) : (s.utf8Cont payload).seq.fix = s.seq.fix := by
  unfold State.utf8Cont
  dsimp only
  split <;> rfl

/-- No element of the header writes the fixed part that FRAME left; a fault ends it. -/
theorem exec_keeps_fix {i : Instr} {s t : State} (hi : i.format.framePart = .header) (hne : i.format ≠ .crc8)
    (h : exec i s = .next t) : t.status = .fault ∨ t.seq.fix = s.seq.fix := by
  cases i with
  | ca0 | ca1 | ca2 | ca3 | ca4 | ca5 | ca6 | ca7 | ca8 | ca9 | ca10 | ca11 | ca12 | ca13 | ca14 | ca15 =>
    cases h
    exact channelAssignment_fix s _
  | ssc0 | ssc1 | ssc2 | ssc4 | ssc5 | ssc6 | bsc1 | bsc2 | bsc3 | bsc4 | bsc5 | bsc6 | bsc7 | bsc8 | bsc9 | bsc10
  | bsc11 | bsc12 | bsc13 | bsc14 | bsc15 | rc0 | rc1 | rc2 | rc3 | rc4 | rc5 | rc6 | rc7 | rc8 | rc9 | rc10 | rc11
  | rc12 | rc13 | rc14 =>
    cases h
    exact .inr rfl
  | u8Lead1 | u8Lead2 | u8Lead3 | u8Lead4 | u8Lead5 | u8Lead6 | u8Lead7 =>
    cases h
    exact .inr (utf8Lead_fix s _ _)
  | u8Cont =>
    cases h
    exact .inr (utf8Cont_fix s _)
  | ssc3 | ssc7 | u8BadLead1 | u8BadLead8 | u8BadCont0 | u8BadCont3 | bsc0 | rc15 =>
    cases h
    exact .inl rfl
  | crc8 => exact absurd rfl hne
  | _ => cases hi

/-- While BUSY the machine is past the start of its frame, and in the header it holds the fixed part `f`. -/
def State.Holds (f : FixedPart) (s : State) : Prop :=
  s.status = .busy → s.seq.pos.framePart ≠ .start ∧ (s.seq.pos.framePart = .header → s.seq.fix = f)

theorem holds_of_not_busy {f : FixedPart} {s : State} (h : s.status ≠ .busy) : s.Holds f := fun hb => absurd hb h

theorem holds_of_part {f : FixedPart} {s : State} {p : FramePart} (h : s.seq.pos.framePart = p) (hs : p ≠ .start)
    (hh : p ≠ .header) : s.Holds f :=
  fun _ => ⟨h ▸ hs, fun hp => absurd (h.symm.trans hp) hh⟩

theorem GoesOn.holds_body {f : FixedPart} {s t : State} (h : GoesOn .body s t) : t.Holds f := by
  obtain hf | ⟨-, hpart, -⟩ := h
  · exact holds_of_not_busy (by rw [hf]; nofun)
  · exact holds_of_part hpart nofun nofun

theorem framePart_ne_command (p : Pos) : p.framePart ≠ .command := by
  cases p <;> nofun

theorem execCrc8_holds {f : FixedPart} {stored : BitVec 8} {s t : State} (h : exec (.crc8 stored) s = .next t) :
    t.Holds f := by
  cases h
  split
  · exact (goesOn_gotoSubframe _ 0).holds_body
  · exact holds_of_not_busy nofun

theorem execFoot_holds {f : FixedPart} {stored : BitVec 16} {s t : State} (h : exec (.foot stored) s = .next t) :
    t.Holds f := by
  cases h
  split <;> exact holds_of_not_busy nofun

/-- An instruction of the part of the frame in which the machine stands keeps `Holds`. -/
theorem exec_holds {f : FixedPart} {i : Instr} {s t : State} (hb : s.status = .busy) (hf : s.Holds f)
    (hpart : s.seq.pos.framePart = i.format.framePart) (h : exec i s = .next t) : t.Holds f := by
  obtain ⟨hstart, hfix⟩ := hf hb
  cases hi : i.format.framePart with
  | command => exact absurd (hpart.trans hi) (framePart_ne_command _)
  | start => exact absurd (hpart.trans hi) hstart
  | header =>
    by_cases hne : i.format = .crc8
    · cases i with
      | crc8 => exact execCrc8_holds h
      | _ => cases hne
    · obtain hfault | hkept := exec_keeps_fix hi hne h
      · exact holds_of_not_busy (by rw [hfault]; nofun)
      obtain hfault | ⟨-, hpart', -⟩ := exec_goesOn_header (hpart.trans hi) hi hne h
      · exact holds_of_not_busy (by rw [hfault]; nofun)
      · exact fun _ => ⟨by rw [hpart']; nofun, fun _ => hkept.trans (hfix (hpart.trans hi))⟩
  | body =>
    by_cases hne : i.format = .pad
    · cases i with
      | padbits =>
        cases h
        exact holds_of_part rfl nofun nofun
      | _ => cases hne
    · exact (exec_goesOn_body (hpart.trans hi) hi hne h).holds_body
  | footer =>
    cases i with
    | foot => exact execFoot_holds h
    | _ => cases hi

theorem step_holds {f : FixedPart} {s t : State} (hh : s.host = []) (hr : s.Readable) (hf : s.Holds f)
    (h : step s = .next t) : t.host = [] ∧ t.Readable ∧ t.Holds f := by
  by_cases hb : s.status = .busy
  · rw [step_element hh hb] at h
    obtain ⟨-, -, -, -, hhost, -⟩ := stepElement_elementFrame hb h
    refine ⟨hhost.trans hh, stepElement_readable hb hr h, ?_⟩
    obtain ⟨_, i, r, ⟨-, -, hi⟩, hx⟩ | hstop := stepElement_inv hr.brN hr.sample h
    · exact exec_holds (s := s.withStream r) hb hf (by rw [hi, framePart_format]; rfl) hx
    · exact holds_of_not_busy (by obtain hstop | hstop := hstop <;> rw [hstop] <;> nofun)
  · cases (step_still hh hb).symm.trans h
    exact ⟨hh, hr, hf⟩

/-- O26 leaves open what the number field does to the variables: by this it keeps the fixed part. -/
theorem stepsTo_holds {f : FixedPart} {k : Nat} {s t : State} (hh : s.host = []) (hr : s.Readable) (hf : s.Holds f)
    (h : stepsTo k s t) : t.Holds f := by
  induction k generalizing s with
  | zero => cases h; exact hf
  | succ k ih =>
    obtain ⟨u, hu, hrest⟩ := h
    obtain ⟨hh', hr', hf'⟩ := step_holds hh hr hf hu
    exact ih hh' hr' hf' hrest

end Sys2Proof.Machine

namespace Sys2Proof.Claims

open Sys2Proof.Machine

/-! ### The bytes of a header, by its fields -/

/-- What the fixed part leaves for the elements after it (R185). -/
def HeaderFields.fixed (h : HeaderFields) : FixedPart :=
  { var := h.var, bsc := h.bsc, rc := h.rc, ca := h.ca, ssc := h.ssc }

/-- The fixed part as a word (R101). -/
def HeaderFields.word (h : HeaderFields) : BitVec 32 :=
  0x3FFE#14 ++ 0#1 ++ h.var ++ h.bsc ++ h.rc ++ h.ca ++ h.ssc ++ 0#1

/-- The bytes of the fixed part, and those of the tails that the block-size and the sample-rate code read. -/
def HeaderFields.fixedBytes (h : HeaderFields) : List Byte :=
  [h.word.extractLsb' 24 8, h.word.extractLsb' 16 8, h.word.extractLsb' 8 8, h.word.extractLsb' 0 8]

def HeaderFields.blockTail (h : HeaderFields) : List Byte :=
  if h.bsc = 6#4 then [h.bsTail.extractLsb' 0 8]
  else if h.bsc = 7#4 then [h.bsTail.extractLsb' 8 8, h.bsTail.extractLsb' 0 8] else []

def HeaderFields.rateBytes (h : HeaderFields) : List Byte :=
  if h.rc = 12#4 then [h.rateTail.extractLsb' 0 8]
  else if h.rc = 13#4 ∨ h.rc = 14#4 then [h.rateTail.extractLsb' 8 8, h.rateTail.extractLsb' 0 8] else []

theorem HeaderFields.bytes_eq (h : HeaderFields) :
    h.bytes = h.fixedBytes ++ utf8Bytes h.num.toNat ++ h.blockTail ++ h.rateBytes := rfl

end Sys2Proof.Claims

namespace Sys2Proof.Machine

open Sys2Proof.Claims

/-! ### The fixed part -/

theorem bvBits_fourBytes (w : BitVec 32) :
    [w.extractLsb' 24 8, w.extractLsb' 16 8, w.extractLsb' 8 8, w.extractLsb' 0 8].flatMap bvBits = bvBits w := by
  have split (m n : Nat) := msbBits_append m n w.toNat
  simp only [List.flatMap_cons, List.flatMap_nil, List.append_nil, bvBits_extractLsb', pow_zero, Nat.div_one]
  rw [bvBits, split 8 24, split 8 16, split 8 8]

theorem bvBits_word (h : HeaderFields) :
    bvBits h.word =
      bvBits 0x3FFE#14 ++ bvBits 0#1 ++ bvBits h.var ++ bvBits h.bsc ++ bvBits h.rc ++ bvBits h.ca ++ bvBits h.ssc ++
        bvBits 0#1 := by
  rw [HeaderFields.word]
  simp only [bvBits_append]

/-- The step over the fixed part of a header: FRAME, with its fields held (R185, R186). -/
theorem step_fixedPart {h : HeaderFields} {s : State} {rest : List Byte} (hs : ready s .frame) (hn : s.stream.brN = 0)
    (hb : s.stream.bytes = h.fixedBytes ++ rest) :
    ∃ r, Pulled h.fixedBytes (opened s.stream) r ∧ r.brN = 0 ∧
      step s = .next { s.withStream r with seq := { s.seq with fix := h.fixed, pos := .ca } } := by
  obtain ⟨hbusy, hh, hpos, hfits⟩ := hs
  have hup : (opened s.stream).upcoming = bvBits h.word ++ rest.flatMap bvBits := by
    rw [upcoming_of_aligned (r := opened s.stream) hn, show (opened s.stream).bytes = _ from hb, List.flatMap_append,
      HeaderFields.fixedBytes, bvBits_fourBytes]
  rw [bvBits_word] at hup
  have hleaves : (decodeFh (opened s.stream)).Leaves (.instr (.frame h.var h.bsc h.rc h.ca h.ssc))
      (rest.flatMap bvBits) :=
    decodeFh_leaves _ _ _ _ _ _ hup
  obtain ⟨r, hd, hr⟩ := hleaves
  have hc := decodeFh_consumes (opened s.stream) (hn ▸ Nat.zero_le 7)
  obtain ⟨hp, hn'⟩ := pulled_of_wholeBytes (r := opened s.stream) hn hc (congrArg (Decoded.rest _) hd) hb hr
  refine ⟨r, hp, hn', ?_⟩
  rw [← fetch_openElement_frame hpos] at hd
  rw [step_element hh hbusy, stepElement_instr hfits hd]
  rfl

/-! ### From element to element of the header -/

/-- The machine is ready at `p` on a byte boundary, with the fixed part of `h` held and `bytes` to come. -/
structure InHeader (h : HeaderFields) (p : Pos) (bytes : List Byte) (s : State) : Prop where
  ready : ready s p
  aligned : s.stream.brN = 0
  fixed : s.seq.fix = h.fixed
  bytes : s.stream.bytes = bytes

/-- `t` is `s` but for the header registers, which hold `H`, the stream and the variables. -/
def WritesHeader (H : Header) (s t : State) : Prop :=
  t = { s with hdr := H, src := t.src, dp := t.dp, seq := t.seq }

section WritesHeader

variable {H H' : Header} {s t u : State}

theorem WritesHeader.trans (h : WritesHeader H s t) (h' : WritesHeader H' t u) : WritesHeader H' s u := by
  unfold WritesHeader at h h'
  rw [h] at h'
  exact h'

theorem WritesHeader.hdr (h : WritesHeader H s t) : t.hdr = H := congrArg (·.hdr) h

theorem WritesHeader.cfgRate (h : WritesHeader H s t) : t.cfgRate = s.cfgRate := congrArg (·.cfgRate) h

theorem WritesHeader.cfgBps (h : WritesHeader H s t) : t.cfgBps = s.cfgBps := congrArg (·.cfgBps) h

theorem WritesHeader.status (h : WritesHeader H s t) : t.status = s.status := congrArg (·.status) h

theorem WritesHeader.host (h : WritesHeader H s t) : t.host = s.host := congrArg (·.host) h

theorem WritesHeader.subs (h : WritesHeader H s t) : t.subs = s.subs := congrArg (·.subs) h

theorem WritesHeader.d (h : WritesHeader H s t) : t.d = s.d := congrArg (·.d) h

theorem WritesHeader.frameCount (h : WritesHeader H s t) : t.frameCount = s.frameCount := congrArg (·.frameCount) h

end WritesHeader

/-- From `p` some steps over just the bytes `ps` lead to `q`. They set the header registers to `u` of what `h` gives and
of what they were; nothing else is written but the stream and the variables. -/
def Advances (h : HeaderFields) (p : Pos) (ps : List Byte) (q : Pos) (u : Header → Header → Header) : Prop :=
  ∀ s rest, InHeader h p (ps ++ rest) s →
    ∃ t, InHeader h q rest t ∧ (∃ k, stepsTo k s t) ∧ Pulled ps s.stream t.stream ∧
      WritesHeader (u (h.result s.cfgRate s.cfgBps) s.hdr) s t

theorem stepsTo_trans {k l : Nat} {s t u : State} (h : stepsTo k s t) (h' : stepsTo l t u) : stepsTo (k + l) s u := by
  induction k generalizing s with
  | zero =>
    cases h
    rwa [Nat.zero_add]
  | succ k ih =>
    obtain ⟨v, hv, hrest⟩ := h
    rw [Nat.succ_add]
    exact ⟨v, hv, ih hrest⟩

theorem Advances.trans {h : HeaderFields} {p q o : Pos} {ps qs : List Byte} {u v : Header → Header → Header}
    (hu : Advances h p ps q u) (hv : Advances h q qs o v) :
    Advances h p (ps ++ qs) o fun given old => v given (u given old) := by
  intro s rest hs
  rw [List.append_assoc] at hs
  obtain ⟨t, ht, ⟨k, hk⟩, hp, hst⟩ := hu s _ hs
  obtain ⟨t', ht', ⟨l, hl⟩, hp', hst'⟩ := hv t rest ht
  rw [hst.hdr, hst.cfgRate, hst.cfgBps] at hst'
  exact ⟨t', ht', ⟨k + l, stepsTo_trans hk hl⟩, Pulled_trans hp hp', hst.trans hst'⟩

/-- What some steps over `ps` leave is in the header again. -/
theorem inHeader_of_pulled {h : HeaderFields} {p q : Pos} {ps rest : List Byte} {s t : State} {H : Header}
    (hs : InHeader h p (ps ++ rest) s) (hp : Pulled ps s.stream t.stream) (hn : t.stream.brN = 0) (hq : t.seq.pos = q)
    (hfix : t.seq.fix = h.fixed) (ht : WritesHeader H s t) : InHeader h q rest t := by
  obtain ⟨⟨hbusy, hh, -, hfits⟩, -, -, hb⟩ := hs
  have hfits' : t.sourceFits = true := by
    obtain ⟨hbytes, -, hsrcPos, -⟩ := hp
    exact sourceFits_of_pulls hfits hbytes hsrcPos
  exact ⟨⟨ht.status.trans hbusy, ht.host.trans hh, hq, hfits'⟩, hn, hfix,
    List.append_cancel_left (hp.bytes.symm.trans hb)⟩

/-- An element of the header whose bits are those of the bytes `ps`. -/
theorem advances_of_element {h : HeaderFields} {p q : Pos} {ps : List Byte} {u : Header → Header → Header}
    (hpart : p.framePart = .header) (hne : p ≠ .crc8)
    (hd : ∀ s rest, InHeader h p (ps ++ rest) s → ∃ i, s.fetch.Leaves (.instr i) (rest.flatMap bvBits) ∧
      ∀ r, exec i (s.withStream r) =
        .next
          { s.withStream r with
            hdr := u (h.result s.cfgRate s.cfgBps) s.hdr, seq := { s.seq with pos := q } }) :
    Advances h p ps q u := by
  intro s rest hs
  have ⟨⟨hbusy, hh, hpos, hfits⟩, hn, hfix, hb⟩ := hs
  have hopen : s.openElement = s :=
    openElement_of_framePart (by rw [hpos, hpart]; nofun) (by rwa [hpos]) (by rw [hpos, hpart]; nofun)
  obtain ⟨i, ⟨r, hf, hr⟩, hx⟩ := hd s rest hs
  have hc := fetch_consumes s (hn ▸ Nat.zero_le 7)
  obtain ⟨hp, hn'⟩ := pulled_of_wholeBytes hn hc (congrArg (Decoded.rest _) hf) hb hr
  rw [← hopen] at hf
  have hstep := (step_element hh hbusy).trans ((stepElement_instr hfits hf).trans (hx r))
  refine ⟨_, ?_, ⟨1, _, hstep, rfl⟩, hp, rfl⟩
  exact inHeader_of_pulled hs hp hn' rfl hfix rfl

/-- An element whose code the fixed part gave, with no tail. -/
theorem leaves_of_instr {d : Decoded} {i : Instr} {r : Stream} {rest : List Byte} (hd : d = .instr i r) (hn : r.brN = 0)
    (hb : r.bytes = rest) : d.Leaves (.instr i) (rest.flatMap bvBits) :=
  ⟨r, hd, hb ▸ upcoming_of_aligned hn⟩

/-! ### The rows of legal codes -/

theorem decodeCa_legal {ca : BitVec 4} (h : ca.toNat ≤ 10) (r : Stream) :
    ∃ i, decodeCa ca r = .instr i r ∧ (i, ca.toNat) ∈ channelRows := by
  unfold decodeCa
  generalize ca.toNat = n at h
  interval_cases n <;> exact ⟨_, rfl, by decide⟩

theorem decodeSsc_legal {ssc : BitVec 3} (h3 : ssc ≠ 3#3) (h7 : ssc ≠ 7#3) (r : Stream) :
    ∃ i, decodeSsc ssc r = .instr i r ∧
      ∀ s, exec i s = .next (withSize s ([s.cfgBps, 8#6, 12#6, 0#6, 16#6, 20#6, 24#6].getD ssc.toNat 0#6)) := by
  obtain ⟨n, hn, rfl⟩ := exists_ofNat ssc
  interval_cases n
  on_goal 8 => exact absurd rfl h7
  on_goal 4 => exact absurd rfl h3
  all_goals exact ⟨_, rfl, fun _ => rfl⟩

theorem advances_ca {h : HeaderFields} (hca : h.ca.toNat ≤ 10) :
    Advances h .ca [] .ssc fun given old => { old with var := given.var, ca := given.ca, nch := given.nch } := by
  refine advances_of_element rfl nofun fun s rest hs => ?_
  obtain ⟨⟨-, -, hpos, -⟩, hn, hfix, hb⟩ := hs
  obtain ⟨i, hd, hi⟩ := decodeCa_legal hca s.stream
  refine ⟨i, leaves_of_instr ?_ hn hb, fun r => ?_⟩
  · rw [State.fetch, hpos, hfix]
    exact hd
  · obtain ⟨hrow, -⟩ := Proofs.channelAssignmentRows (s.withStream r)
    rw [hrow _ hi, withChannels, ofNat_toNat_self, State.withStream_seq, hfix]
    rfl

theorem advances_ssc {h : HeaderFields} (h3 : h.ssc ≠ 3#3) (h7 : h.ssc ≠ 7#3) :
    Advances h .ssc [] .numLead fun given old => { old with ss := given.ss } := by
  refine advances_of_element rfl nofun fun s rest hs => ?_
  obtain ⟨⟨-, -, hpos, -⟩, hn, hfix, hb⟩ := hs
  obtain ⟨i, hd, hrow⟩ := decodeSsc_legal h3 h7 s.stream
  refine ⟨i, leaves_of_instr ?_ hn hb, fun r => hrow _⟩
  rw [State.fetch, hpos, hfix]
  exact hd

theorem advances_number (h : HeaderFields) :
    Advances h .numLead (utf8Bytes h.num.toNat) .bsc fun given old => { old with num := given.num } := by
  intro s rest hs
  have ⟨hready, hn, hfix, hb⟩ := hs
  have ⟨hbusy, hh, hpos, hfits⟩ := hready
  obtain ⟨t, hsteps, hp, hn', hpos', ht⟩ := Proofs.utf8IsInvertedByDecoding s _ rest h.num.isLt hready hn hb
  rw [ofNat_toNat_self] at ht
  have hreadable : s.Readable := ⟨hn.trans_le (Nat.zero_le 7), hfits, sampleOk_of_pos (by rw [hpos]; nofun)⟩
  have hholds : s.Holds h.fixed := fun _ => ⟨by rw [hpos]; nofun, fun _ => hfix⟩
  obtain ⟨-, hfix'⟩ := stepsTo_holds hh hreadable hholds hsteps (WritesHeader.status ht |>.trans hbusy)
  exact ⟨t, inHeader_of_pulled hs hp hn' hpos' (hfix' (by rw [hpos']; rfl)) ht, ⟨_, hsteps⟩, hp, ht⟩

/-! ### The tails of the block-size and sample-rate codes -/

section Tails

variable {r : Stream} {rest : List Byte}

theorem byteTail_leaves {row : BitVec 8 → Instr} (tail : BitVec 16) (hn : r.brN = 0)
    (hb : r.bytes = [tail.extractLsb' 0 8] ++ rest) :
    (field 8 r fun v r1 => .instr (row (BitVec.ofNat 8 v)) r1).Leaves (.instr (row (tail.extractLsb' 0 8)))
      (rest.flatMap bvBits) :=
  operand_leaves _ (by rw [upcoming_of_aligned hn, hb]; rfl)

theorem wordTail_leaves {row : BitVec 16 → Instr} (tail : BitVec 16) (hn : r.brN = 0)
    (hb : r.bytes = [tail.extractLsb' 8 8, tail.extractLsb' 0 8] ++ rest) :
    (field 16 r fun v r1 => .instr (row (BitVec.ofNat 16 v)) r1).Leaves (.instr (row tail)) (rest.flatMap bvBits) := by
  have htail : bvBits tail = bvBits (tail.extractLsb' 8 8) ++ bvBits (tail.extractLsb' 0 8) := by
    rw [bvBits_extractLsb', bvBits_extractLsb', pow_zero, Nat.div_one, ← msbBits_append]
    rfl
  refine operand_leaves tail ?_
  rw [upcoming_of_aligned hn, hb, htail, List.append_assoc]
  rfl

theorem toNat_lowByte (tail : BitVec 16) : (tail.extractLsb' 0 8).toNat = tail.toNat % 256 :=
  BitVec.extractLsb'_toNat _ _ _

theorem withBlock_toNat (s : State) (n : Nat) : withBlock s (BitVec.ofNat 17 n).toNat = withBlock s n := by
  rw [withBlock, ofNat_toNat_self]
  rfl

theorem withRate_toNat (s : State) (n : Nat) : withRate s (BitVec.ofNat 20 n).toNat = withRate s n := by
  rw [withRate, ofNat_toNat_self]
  rfl

/-- The row of each block-size code but 0 (R104): 6 and 7 read a tail, the others have an entry of the table. -/
theorem decodeBsc_legal {h : HeaderFields} (hbsc : h.bsc ≠ 0#4) (hn : r.brN = 0) (hb : r.bytes = h.blockTail ++ rest) :
    ∃ i, (decodeBsc h.bsc r).Leaves (.instr i) (rest.flatMap bvBits) ∧
      ∀ s, exec i s = .next (withBlock s (h.result s.cfgRate s.cfgBps).bs.toNat) := by
  obtain ⟨var, bsc, rc, ca, ssc, num, bsTail, rateTail⟩ := h
  obtain ⟨n, hlt, rfl⟩ := exists_ofNat bsc
  dsimp only at hbsc ⊢
  interval_cases n
  on_goal 8 =>
    refine ⟨.bsc7 bsTail, wordTail_leaves bsTail hn hb, fun s => ?_⟩
    obtain ⟨-, -, -, htail⟩ := Proofs.blockSizeRows s
    rw [htail, ← withBlock_toNat]
    rfl
  on_goal 7 =>
    refine ⟨.bsc6 _, byteTail_leaves bsTail hn hb, fun s => ?_⟩
    obtain ⟨-, -, htail, -⟩ := Proofs.blockSizeRows s
    rw [htail, toNat_lowByte, ← withBlock_toNat]
    rfl
  on_goal 1 => exact absurd rfl hbsc
  all_goals exact ⟨_, leaves_of_instr rfl hn hb, fun _ => rfl⟩

/-- The row of each sample-rate code but 15 (R105): 12 to 14 read a tail, 0 takes `CFG_RATE`, the others have an entry
of the table. -/
theorem decodeRc_legal {h : HeaderFields} (hrc : h.rc ≠ 15#4) (hn : r.brN = 0) (hb : r.bytes = h.rateBytes ++ rest) :
    ∃ i, (decodeRc h.rc r).Leaves (.instr i) (rest.flatMap bvBits) ∧
      ∀ s, exec i s = .next (withRate s (h.result s.cfgRate s.cfgBps).rate.toNat) := by
  obtain ⟨var, bsc, rc, ca, ssc, num, bsTail, rateTail⟩ := h
  obtain ⟨n, hlt, rfl⟩ := exists_ofNat rc
  dsimp only at hrc ⊢
  interval_cases n
  on_goal 16 => exact absurd rfl hrc
  on_goal 15 =>
    refine ⟨.rc14 rateTail, wordTail_leaves rateTail hn hb, fun s => ?_⟩
    obtain ⟨-, -, -, -, htens, -⟩ := Proofs.sampleRateRows s
    rw [htens, ← withRate_toNat]
    rfl
  on_goal 14 =>
    refine ⟨.rc13 rateTail, wordTail_leaves rateTail hn hb, fun s => ?_⟩
    obtain ⟨-, -, -, hhz, -⟩ := Proofs.sampleRateRows s
    rw [hhz, ← withRate_toNat]
    rfl
  on_goal 13 =>
    refine ⟨.rc12 _, byteTail_leaves rateTail hn hb, fun s => ?_⟩
    obtain ⟨-, -, hkhz, -⟩ := Proofs.sampleRateRows s
    rw [hkhz, toNat_lowByte, ← withRate_toNat]
    rfl
  on_goal 1 =>
    refine ⟨.rc0, leaves_of_instr rfl hn hb, fun s => ?_⟩
    obtain ⟨hconfig, -⟩ := Proofs.sampleRateRows s
    exact hconfig
  all_goals exact ⟨_, leaves_of_instr rfl hn hb, fun _ => rfl⟩

end Tails

theorem advances_bsc {h : HeaderFields} (hbsc : h.bsc ≠ 0#4) :
    Advances h .bsc h.blockTail .rc fun given old => { old with bs := given.bs } := by
  refine advances_of_element rfl nofun fun s rest hs => ?_
  obtain ⟨⟨-, -, hpos, -⟩, hn, hfix, hb⟩ := hs
  obtain ⟨i, hd, hrow⟩ := decodeBsc_legal hbsc hn hb
  refine ⟨i, ?_, fun r => ?_⟩
  · rw [State.fetch, hpos, hfix]
    exact hd
  · rw [hrow, withBlock, ofNat_toNat_self]
    rfl

theorem advances_rc {h : HeaderFields} (hrc : h.rc ≠ 15#4) :
    Advances h .rc h.rateBytes .crc8 fun given old => { old with rate := given.rate } := by
  refine advances_of_element rfl nofun fun s rest hs => ?_
  obtain ⟨⟨-, -, hpos, -⟩, hn, hfix, hb⟩ := hs
  obtain ⟨i, hd, hrow⟩ := decodeRc_legal hrc hn hb
  refine ⟨i, ?_, fun r => ?_⟩
  · rw [State.fetch, hpos, hfix]
    exact hd
  · rw [hrow, withRate, ofNat_toNat_self]
    rfl

/-- From FRAME to the CRC-8 the header gives every result register but `FH_CRC8` (R185). -/
theorem advances_fields {h : HeaderFields} (hl : h.legal) :
    Advances h .ca (utf8Bytes h.num.toNat ++ h.blockTail ++ h.rateBytes) .crc8 fun given old =>
      { given with crc8 := old.crc8 } := by
  obtain ⟨hca, h3, h7, hbsc, hrc⟩ := hl
  exact ((((advances_ca hca).trans (advances_ssc h3 h7)).trans (advances_number h)).trans (advances_bsc hbsc)).trans
    (advances_rc hrc)

/-- A stored CRC-8 that matches opens the first subframe (R199). -/
theorem step_crc8_match {s : State} {b : Byte} {rest : List Byte} (hs : ready s .crc8) (hn : s.stream.brN = 0)
    (hb : s.stream.bytes = b :: rest) (hmatch : b = s.stream.crc8) :
    ∃ r, Pulled [b] { s.stream with tee8 := false } r ∧ r.brN = 0 ∧
      step s = .next (State.gotoSubframe { s.withStream r with hdr := { s.hdr with crc8 := b } } 0) := by
  obtain ⟨r, hp, hr, hstep⟩ := step_crc8 hs hn hb
  have hcrc8 : b = (s.withStream r).dp.crc8 := hmatch.trans (hp.crc8_of_off rfl).symm
  exact ⟨r, hp, hr, hstep.trans (congrArg _ (if_pos hcrc8))⟩

theorem result_nch_pos {h : HeaderFields} (hca : h.ca.toNat ≤ 10) (cfgRate : BitVec 20) (cfgBps : BitVec 6) :
    0 < (h.result cfgRate cfgBps).nch.toNat := by
  show 0 < (BitVec.ofNat 4 (if h.ca.toNat ≤ 7 then h.ca.toNat + 1 else 2)).toNat
  rw [BitVec.toNat_ofNat]
  split <;> omega

/-- The fixed part and the elements after it, up to the CRC-8: the header's bytes are pulled with both tees on
(R186). -/
theorem exists_steps_to_crc8 {h : HeaderFields} {s : State} {rest : List Byte} (hl : h.legal) (hs : ready s .frame)
    (hn : s.stream.brN = 0) (hb : s.stream.bytes = h.bytes ++ rest) :
    ∃ t, (∃ k, stepsTo k s t) ∧ InHeader h .crc8 rest t ∧ Pulled h.bytes (opened s.stream) t.stream ∧
      WritesHeader { h.result s.cfgRate s.cfgBps with crc8 := s.hdr.crc8 } s t := by
  have hbytes : h.bytes = h.fixedBytes ++ (utf8Bytes h.num.toNat ++ h.blockTail ++ h.rateBytes) := by
    rw [h.bytes_eq, List.append_assoc, List.append_assoc, List.append_assoc]
  rw [hbytes, List.append_assoc] at hb
  obtain ⟨r, hp, hr, hstep⟩ := step_fixedPart hs hn hb
  have hready := ready_of_pulled (s := s.withStream (opened s.stream)) (q := { s.seq with fix := h.fixed, pos := .ca })
    hs hp rfl
  have hin : InHeader h .ca _ { s.withStream r with seq := { s.seq with fix := h.fixed, pos := .ca } } :=
    ⟨hready, hr, rfl, List.append_cancel_left (hp.bytes.symm.trans hb)⟩
  obtain ⟨t, ht, ⟨k, hk⟩, hp', hw⟩ := advances_fields hl _ rest hin
  exact ⟨t, ⟨k + 1, _, hstep, hk⟩, ht, hbytes ▸ Pulled_trans hp hp', hw⟩

end Sys2Proof.Machine

namespace Sys2Proof.Proofs

open Sys2Proof.Machine Sys2Proof.Claims

/-- Settles O27: the elements before the CRC-8 pull the header's bytes with `tee8` on, so `crc8` is the header's CRC-8
when the stored one is compared. -/
theorem legalHeadersAreAccepted : Obligations.LegalHeadersAreAccepted := by
  unfold Obligations.LegalHeadersAreAccepted
  intro s h rest hl hs hn hb
  rw [List.append_assoc] at hb
  obtain ⟨t, ⟨k, hk⟩, ht, hp, hw⟩ := exists_steps_to_crc8 hl hs hn hb
  have hcrc8 : t.stream.crc8 = crc8Of h.bytes := hp.crc8_of_on rfl
  have hcrc16 : t.stream.crc16 = crc16Of h.bytes := hp.crc16_of_on rfl
  obtain ⟨r, hpr, hr, hstep⟩ := step_crc8_match ht.ready ht.aligned ht.bytes hcrc8.symm
  have hdr : { t.hdr with crc8 := crc8Of h.bytes } = h.result s.cfgRate s.cfgBps := by
    rw [hw.hdr]
    rfl
  rw [hdr] at hstep
  have hw' := hw.trans (u := State.gotoSubframe { t.withStream r with hdr := h.result s.cfgRate s.cfgBps } 0) rfl
  have ⟨hbusy, _, _, _⟩ := hs
  have ⟨hca, _, _, _, _⟩ := hl
  refine ⟨k + 1, _, stepsTo_trans hk ⟨_, hstep, rfl⟩, hw'.status.trans hbusy, if_pos (result_nch_pos hca _ _), rfl, rfl,
    List.append_cancel_left (hpr.bytes.symm.trans ht.bytes), hr, (hpr.crc8_of_off rfl).trans hcrc8, ?crc16, hw'.subs,
    hw'.d, hw'.frameCount⟩
  case crc16 =>
    calc r.crc16 = crc16Update t.stream.crc16 (crc8Of h.bytes) := hpr.crc16_of_on hp.tee16
      _ = crc16Of (h.bytes ++ [crc8Of h.bytes]) := by rw [hcrc16]; simp [crc16Of]

end Sys2Proof.Proofs
end

section
/-! PROOFS. The body of a subframe: acceptance after the wasted bits, the LPC header and its coefficients, the end of the
subframe with its samples in `D`, and the predictor's recurrence. -/

namespace Sys2Proof.Machine

open Sys2Proof.Claims

/-! ### The LPC header and the coefficients -/

/-- A 5-bit shift with top bit 0 is not negative, and its low bits are the value (R246). -/
theorem lpcShift_nonneg : ∀ sh : BitVec 4, ¬(0#1 ++ sh).toInt < 0 ∧ (0#1 ++ sh).truncate 4 = sh := by decide

theorem lpcShift_neg : ∀ sh : BitVec 4, (1#1 ++ sh).toInt < 0 := by decide

theorem lpcHeader_shift (s : State) {prec : BitVec 4} (hp : prec ≠ 15) (sh : BitVec 4) :
    s.lpcHeader prec (0#1 ++ sh) =
      { s with files := { s.files with shift := sh }, seq := { s.seq with prec := prec, idx := 0, pos := .coef } } := by
  obtain ⟨hnonneg, hlow⟩ := lpcShift_nonneg sh
  rw [State.lpcHeader, if_neg hp, if_neg hnonneg, hlow]

theorem lpcHeader_badShift (s : State) {prec : BitVec 4} (hp : prec ≠ 15) (sh : BitVec 4) :
    s.lpcHeader prec (1#1 ++ sh) = s.raise .badLpcShift 0 := by
  rw [State.lpcHeader, if_neg hp, if_pos (lpcShift_neg sh)]

theorem coefficient_eq (s : State) (v : Word) :
    s.coefficient v =
      { s with
        files := { s.files with c := s.files.c.setIfInBounds s.seq.idx v }
        seq :=
          { s.seq with
            idx := if s.seq.idx + 1 < s.order then s.seq.idx + 1 else 0
            pos := if s.seq.idx + 1 < s.order then .coef else .res } } := by
  by_cases hi : s.seq.idx + 1 < s.order <;> simp [State.coefficient, State.gotoIdx, hi]

/-! ### The finish of a subframe -/

theorem sampleAddr_eq_add (c i : Nat) : sampleAddr c i = sampleAddr c 0 + i := by simp [sampleAddr]

/-- With a sample for each index of the block the finish stores them all, and nothing else (R250). -/
theorem stores_finishSubframe {s : State} {f : Files} {xs : List Word} (hx : xs.length = s.hdr.bs.toNat) :
    stores s xs (State.finishSubframe { s with files := f, seq := { s.seq with x := xs } }).d := by
  have hread := memRead_finishSubframe { s with files := f, seq := { s.seq with x := xs } }
  dsimp only at hread
  rw [hx, Nat.min_self] at hread
  refine ⟨fun i hi => ?inside, fun a ha => (hread a).trans (if_neg ha)⟩
  case inside =>
    rw [hread, sampleAddr_eq_add _ i, if_pos (by omega), Nat.add_sub_cancel_left]
    rfl

theorem sample_constant {s : State} (hk : s.cur.kind = .constant) (v : Word) :
    s.sample v = State.finishSubframe { s with seq := { s.seq with x := List.replicate s.hdr.bs.toNat v } } := by
  rw [State.sample, hk]

theorem sample_verbatim_last {s : State} (hk : s.cur.kind = .verbatim) (hi : s.hdr.bs.toNat ≤ s.seq.idx + 1)
    (v : Word) :
    s.sample v = State.finishSubframe { s with seq := { s.seq with x := s.seq.x ++ [v] } } := by
  rw [State.sample, hk]
  exact if_neg (by omega)

/-! ### The value of a codeword -/

theorem ushiftRight_one_eq (u : Word) : u >>> 1 = BitVec.ofInt 64 (u.toNat / 2 : Nat) := by
  rw [BitVec.ofInt_natCast]
  apply BitVec.eq_of_toNat_eq
  rw [BitVec.toNat_ushiftRight, BitVec.toNat_ofNat, Nat.shiftRight_eq_div_pow, pow_one]
  omega

/-- Zig-zag unfolding by the parity of the folded value (R268). -/
theorem unzigzag_eq (u : Word) :
    unzigzag u =
      if u.toNat % 2 = 0 then BitVec.ofInt 64 (u.toNat / 2 : Nat) else BitVec.ofInt 64 (-(u.toNat / 2 : Nat) - 1) := by
  have hbit : u.getLsbD 0 = decide (u.toNat % 2 = 1) := Nat.testBit_zero _
  rw [unzigzag, hbit, ushiftRight_one_eq]
  obtain h | h := Nat.mod_two_eq_zero_or_one u.toNat
  · simp [h]
  · simp [h, sub_eq_add_neg, BitVec.ofInt_add, BitVec.ofInt_neg]

/-- The folded value is reduced to 64 bits before it is unfolded (R267, R270). -/
theorem unzigzag_riceFold (m q : Nat) (v : Word) : unzigzag (riceFold m q v) = riceValue m q v := by
  rw [unzigzag_eq, riceFold, BitVec.toNat_ofNat]
  rfl

/-! ### The coefficients of a FIXED order -/

/-- Writing the listed values from the index `k` on leaves what stands before them. -/
theorem take_foldl_setIfInBounds (vs : List Word) (k : Nat) (file : Vector Word 32) (h : k + vs.length ≤ 32) :
    ((vs.zipIdx k).foldl (fun f e => f.setIfInBounds e.2 e.1) file).toList.take (k + vs.length) =
      file.toList.take k ++ vs := by
  induction vs generalizing k file with
  | nil => simp
  | cons v vs ih =>
    rw [List.length_cons] at h
    have hset : (file.setIfInBounds k v).toList.take (k + 1) = file.toList.take k ++ [v] := by
      rw [Vector.toList_setIfInBounds, List.take_add_one, List.take_set_of_le le_rfl,
        List.getElem?_set_self (by rw [Vector.length_toList]; omega)]
      rfl
    rw [List.zipIdx_cons, List.foldl_cons, List.length_cons, show k + (vs.length + 1) = k + 1 + vs.length by omega,
      ih _ _ (by omega), hset, List.append_assoc]
    rfl

theorem take_setFirst {vs : List Word} (hv : vs.length ≤ 32) (file : Vector Word 32) :
    (setFirst file vs).toList.take vs.length = vs := by
  have h := take_foldl_setIfInBounds vs 0 file (by omega)
  rwa [Nat.zero_add] at h

theorem length_fixedCoef : ∀ p ≤ 4, (fixedCoef p).length = p := by decide

/-- In the file of coefficients a FIXED order finds its own row (R284). -/
theorem take_setFirst_fixedCoef {p : Nat} (hp : p ≤ 4) (file : Vector Word 32) :
    (setFirst file (fixedCoef p)).toList.take p = fixedCoef p := by
  have h := take_setFirst (vs := fixedCoef p) (by rw [length_fixedCoef p hp]; omega) file
  rwa [length_fixedCoef p hp] at h

theorem coefs_fixed {s : State} (hk : s.cur.kind = .fixed) (hp : s.order ≤ 4) : coefs s = fixedCoef s.order := by
  rw [coefs, if_pos hk]
  interval_cases s.order <;> rfl

/-! ### The reconstruction -/

theorem nextPartition_last {s : State} (h : 2 ^ s.seq.porder.toNat ≤ s.seq.part + 1) :
    s.nextPartition = s.reconstruct :=
  if_neg (by omega)

theorem residual_endsPartition {s : State} (ht : s.seq.todo = 1) (v : Word) :
    s.residual v =
      State.nextPartition
        { s with files := { s.files with r := s.files.r ++ [v] }, seq := { s.seq with todo := 0 } } := by
  rw [State.residual, if_pos ht.le, ht]

/-- The samples of the current channel: the prediction with the kind's coefficients and shift (R238, R244). -/
def channelSamples (s : State) : List Word :=
  predict (coefs s) (s.files.w.toList.take s.order) s.files.r (shift s)

theorem length_channelSamples {s : State} (h : endsWith s s.files.r.length) :
    (channelSamples s).length = s.hdr.bs.toNat := by
  obtain ⟨hkind, -, hcount⟩ := h
  have hp : s.order ≤ 32 := by omega
  rw [channelSamples, length_predict, List.length_take, Vector.length_toList, Nat.min_eq_left hp, hcount]

/-- Both kinds of residual section end in the finish over these samples; of the files only the coefficients and the shift
can change. -/
theorem reconstruct_eq {s : State} (h : endsWith s s.files.r.length) :
    ∃ c sh, s.reconstruct =
      State.finishSubframe
        { s with files := { s.files with c := c, shift := sh }, seq := { s.seq with x := channelSamples s } } := by
  obtain ⟨⟨hk, hp⟩ | ⟨hk, -⟩, -⟩ := h
  · refine ⟨setFirst s.files.c (fixedCoef s.order), 0, ?_⟩
    rw [reconstruct_fixed hk, State.predicted, take_setFirst_fixedCoef hp, channelSamples, coefs_fixed hk hp, shift,
      if_pos hk]
    rfl
  · refine ⟨s.files.c, s.files.shift, ?_⟩
    have hne : s.cur.kind ≠ .fixed := by simp [hk]
    rw [reconstruct_lpc hk, channelSamples, coefs, if_neg hne, shift, if_neg hne]
    rfl

/-- Once the residuals complete the block, the reconstruction ends the subframe (R280, R250). -/
theorem reconstructed_reconstruct {s : State} (h : endsWith s s.files.r.length) :
    reconstructed s s.seq s.files.r s.reconstruct := by
  obtain ⟨c, sh, he⟩ := reconstruct_eq h
  rw [he]
  exact ⟨rfl, rfl, stores_finishSubframe (length_channelSamples h), rfl⟩

/-! ### The recurrence of the predictor -/

/-- Each sample after the warm-up is its residual plus the shifted sum over the samples before it (R281). -/
theorem getD_predict (cs w rs : List Word) (sh : Nat) {k : Nat} (hk : k < rs.length) :
    (predict cs w rs sh).getD (w.length + k) 0 =
      rs.getD k 0 + (weightedSum 0 cs ((predict cs w rs sh).take (w.length + k)).reverse).sshiftRight sh := by
  induction rs generalizing w k with
  | nil => simp at hk
  | cons r rs ih =>
    cases k with
    | zero => simp [predict, predictFrom]
    | succ k =>
      have h := ih (w ++ [r + (weightedSum 0 cs w.reverse).sshiftRight sh]) (Nat.lt_of_succ_lt_succ hk)
      rw [← predict_cons, List.length_append, List.length_singleton, Nat.add_assoc, Nat.add_comm 1] at h
      exact h

/-- The samples before an index, the latest first. -/
theorem reverse_take_succ {xs : List Word} {n : Nat} (h : n < xs.length) :
    (xs.take (n + 1)).reverse = xs.getD n 0 :: (xs.take n).reverse := by
  rw [List.take_succ_eq_append_getElem h, List.reverse_concat, List.getD_eq_getElem _ _ h]

end Sys2Proof.Machine

namespace Sys2Proof.Proofs

open Sys2Proof.Machine Sys2Proof.Claims

/-- Settles O30: acceptance with `w = k + 1`. -/
theorem wastedBitsRow : Obligations.WastedBitsRow := by
  unfold Obligations.WastedBitsRow
  exact fun s k hc hb => congrArg Host.Outcome.next (acceptHeader_eq_headerRead hc hb _ _ _)

/-- Settles O32: `X` has a sample for each index when it is finished. -/
theorem uncodedSubframeEnds : Obligations.UncodedSubframeEnds := by
  unfold Obligations.UncodedSubframeEnds
  intro s b v xs h
  have hends : s.sample (sext b v) = State.finishSubframe { s with seq := { s.seq with x := xs } } ∧
      xs.length = s.hdr.bs.toNat := by
    obtain hk | ⟨hk, hx, hi⟩ := h
    · simp [xs, hk, sample_constant]
    · simp [xs, hk, sample_verbatim_last hk hi.ge, hx, hi]
  obtain ⟨he, hlen⟩ := hends
  exact ⟨_, congrArg Host.Outcome.next he, stores_finishSubframe (f := s.files) hlen, rfl⟩

/-- Settles O39: the last residual ends the last partition, and the reconstruction follows. -/
theorem lastResidualReconstructs : Obligations.LastResidualReconstructs := by
  unfold Obligations.LastResidualReconstructs
  intro s m q v htodo hends
  have ⟨hkind, hpart, hcount⟩ := hends
  have he : s.residual (unzigzag (riceFold m q v)) =
      State.reconstruct
        { s with files := { s.files with r := s.files.r ++ [riceValue m q v] }, seq := { s.seq with todo := 0 } } := by
    rw [unzigzag_riceFold]
    refine (residual_endsPartition htodo _).trans (nextPartition_last ?_)
    exact hpart
  refine ⟨_, congrArg Host.Outcome.next he, reconstructed_reconstruct ⟨hkind, hpart, ?_⟩⟩
  rwa [List.length_append]

/-- Settles O43: the sum over the last samples, written out for each order. -/
theorem fixedRecurrences : Obligations.FixedRecurrences := by
  unfold Obligations.FixedRecurrences
  intro p w rs hp hw xs x
  have hlen : xs.length = p + rs.length := by rw [← hw]; exact length_predict ..
  refine ⟨?warmup, hlen, fun k hk => ?recurrence⟩
  case warmup => simp [xs, predict, ← hw]
  case recurrence =>
    have h := getD_predict (fixedCoef p) w rs 0 hk
    rw [BitVec.sshiftRight_zero, hw] at h
    change x (p + k) = rs.getD k 0 + weightedSum 0 (fixedCoef p) (xs.take (p + k)).reverse at h
    rw [h]
    interval_cases p
    · rfl
    all_goals
      simp (disch := omega) only [x, Nat.add_comm _ k, reverse_take_succ, fixedCoef, weightedSum]
      ring

/-- Settles O33: the shift's sign is its top bit. -/
theorem lpcHeaderRows : Obligations.LpcHeaderRows := by
  unfold Obligations.LpcHeaderRows
  exact fun s prec sh hp => ⟨congrArg Host.Outcome.next (lpcHeader_shift s hp sh), rfl,
    congrArg Host.Outcome.next (lpcHeader_badShift s hp sh)⟩

/-- Settles O34: whether the order has a further coefficient decides. -/
theorem coefficientRow : Obligations.CoefficientRow := by
  unfold Obligations.CoefficientRow
  exact fun s b v => congrArg Host.Outcome.next (coefficient_eq s (sext b v))

end Sys2Proof.Proofs
end

section
/-! PROOFS. The residual section: its header, the partitions with their lengths, the codewords and their values. -/

namespace Sys2Proof.Machine

open Sys2Proof.Claims

/-! ### Zig-zag unfolding -/

theorem xor_zero_sub_one (x : Word) : x ^^^ (0 - 1) = -x - 1 := by
  rw [show (0 - 1 : Word) = BitVec.allOnes 64 from rfl, BitVec.xor_allOnes, BitVec.not_eq_neg_add]
  rfl

/-- The bit operation of R268: the mask is 0 for an even `u`, all ones for an odd one. -/
theorem unzigzag_eq_xor (u : Word) : unzigzag u = (u >>> 1) ^^^ (0 - (u &&& 1)) := by
  have hmask : u &&& 1 = (BitVec.ofBool (u.getLsbD 0)).setWidth 64 := BitVec.and_one_eq_setWidth_ofBool_getLsbD
  rw [unzigzag, hmask]
  cases u.getLsbD 0 with
  | false => exact (BitVec.xor_zero (x := u >>> 1)).symm
  | true => exact (xor_zero_sub_one (u >>> 1)).symm

/-- Neither value of R268 leaves the range of `s64`. -/
theorem toInt_unzigzag (u : Word) :
    (unzigzag u).toInt = if u.toNat % 2 = 0 then ((u.toNat / 2 : Nat) : Int) else -((u.toNat / 2 : Nat) : Int) - 1 := by
  have hu := u.isLt
  rw [unzigzag_eq]
  split <;> exact BitVec.toInt_ofInt_eq_self (by decide) (by omega) (by omega)

/-! ### The partition lengths -/

/-- With a predictor order taken off the first of `k + 1` equal lengths. -/
theorem sum_map_less_first (c p : Int) (k : Nat) :
    ((List.range (k + 1)).map fun i => if i = 0 then c - p else c).sum = (k + 1) * c - p := by
  induction k with
  | zero => simp
  | succ k ih =>
    rw [List.range_succ, List.map_append, List.sum_append, ih]
    simp
    ring

/-- With `P = 0` the first partition is the whole block, so R265's three cases are two. -/
theorem partitionLength_eq {bs : BitVec 17} {p i : Nat} {P : BitVec 4} (hi : i < 2 ^ P.toNat) :
    partitionLength bs p P i =
      if i = 0 then ((bs.toNat / 2 ^ P.toNat : Nat) : Int) - p else (bs.toNat / 2 ^ P.toNat : Nat) := by
  rw [partitionLength]
  split
  · next hP =>
    rw [hP, pow_zero, Nat.lt_one_iff] at hi
    rw [hP, pow_zero, Nat.div_one, if_pos hi]
  · rfl

theorem sum_partitionLength {bs : BitVec 17} {P : BitVec 4} (p : Nat) (h : bs.toNat % 2 ^ P.toNat = 0) :
    ((List.range (2 ^ P.toNat)).map fun i => partitionLength bs p P i).sum = (bs.toNat : Int) - p := by
  obtain ⟨k, hk⟩ := Nat.exists_eq_succ_of_ne_zero (pow_ne_zero P.toNat two_ne_zero)
  have hbs : (k + 1) * (bs.toNat / 2 ^ P.toNat) = bs.toNat := by
    rw [← Nat.succ_eq_add_one, ← hk, Nat.mul_div_cancel' (Nat.dvd_of_mod_eq_zero h)]
  rw [List.map_congr_left fun i hi => partitionLength_eq (List.mem_range.mp hi), hk, sum_map_less_first, ← hk]
  exact congrArg (fun n : Nat => (n : Int) - p) hbs

/-! ### The headers and the codewords -/

theorem nextPartition_further {s : State} (h : s.seq.part + 1 < 2 ^ s.seq.porder.toNat) :
    s.nextPartition = { s with seq := { s.seq with part := s.seq.part + 1, pos := .part } } :=
  if_pos h

theorem residual_further {s : State} (h : 2 ≤ s.seq.todo) (v : Word) :
    s.residual v =
      { s with files := { s.files with r := s.files.r ++ [v] }, seq := { s.seq with todo := s.seq.todo - 1 } } :=
  if_neg (by omega)

/-- A coding method that is known leaves the partition order to be checked (R261, R266). -/
theorem residualHeader_known (s : State) {method : BitVec 2} (hm : method.toNat ≤ 1) (porder : BitVec 4) :
    s.residualHeader method porder =
      if 0 < porder.toNat ∧ s.hdr.bs.toNat % 2 ^ porder.toNat ≠ 0 then s.raise .badPartition 0
      else
        { s with
          files := { s.files with r := [] }
          seq := { s.seq with method := method.truncate 1, porder := porder, part := 0, pos := .part } } :=
  if_neg (by omega)

theorem residualHeader_badMethod (s : State) (m : BitVec 1) (porder : BitVec 4) :
    s.residualHeader (1#1 ++ m) porder = s.raise .badResidualMethod 0 :=
  if_pos (by revert m; decide)

/-- The length of the partition whose header is read (R265). -/
def State.partLength (s : State) : Int := partitionLength s.hdr.bs s.order s.seq.porder s.seq.part

/-- What a partition header with a legal parameter leaves to do, by the length of its partition (R262, R266). -/
structure PartitionRead (s : State) (m : BitVec 5) (t : State) : Prop where
  negative : s.partLength < 0 → t = faulted s .badPartition 0
  positive : 0 < s.partLength →
    t = { s with seq := { s.seq with m := m, todo := s.partLength.toNat, pos := .rice } }
  zero : s.partLength = 0 → t = State.nextPartition { s with seq := { s.seq with m := m, todo := 0, pos := .rice } }

theorem partitionRead_partition (s : State) {mBits : Nat} {m : BitVec 5} (hm : m.toNat ≠ 2 ^ mBits - 1) :
    PartitionRead s m (s.partition mBits m) := by
  have he : s.partition mBits m =
      if s.partLength < 0 then s.raise .badPartition 0
      else if s.partLength = 0 then
        State.nextPartition { s with seq := { s.seq with m := m, todo := s.partLength.toNat, pos := .rice } }
      else { s with seq := { s.seq with m := m, todo := s.partLength.toNat, pos := .rice } } := if_neg hm
  refine ⟨fun h => ?negative, fun h => ?positive, fun h => ?zero⟩
  case negative => exact he.trans (if_pos h)
  case positive => rw [he, if_neg (by omega), if_neg (by omega)]
  case zero => rw [he, if_neg (by omega), if_pos h, h, Int.toNat_zero]

/-- Both widths of parameter read a header alike: it is legal when it is not all ones (R263). -/
theorem partitionRead_of_instr (s : State) {i : Instr} {m : BitVec 5}
    (h : (∃ m4 : BitVec 4, m4 ≠ 15#4 ∧ i = .part4 m4 ∧ m = BitVec.ofNat 5 m4.toNat) ∨ (m ≠ 31#5 ∧ i = .part5 m)) :
    ∃ t, exec i s = .next t ∧ PartitionRead s m t := by
  obtain ⟨m4, hne, rfl, rfl⟩ | ⟨hne, rfl⟩ := h
  · have hlegal : (m4.setWidth 5).toNat ≠ 2 ^ 4 - 1 := by revert m4; decide
    rw [BitVec.ofNat_toNat]
    exact ⟨_, rfl, partitionRead_partition s hlegal⟩
  · exact ⟨_, rfl, partitionRead_partition s (by revert m; decide)⟩

end Sys2Proof.Machine

namespace Sys2Proof.Proofs

open Sys2Proof.Machine Sys2Proof.Claims

/-- Settles O36: a partition of length 0 that is the last one leaves the block complete. -/
theorem partitionRows : Obligations.PartitionRows := by
  unfold Obligations.PartitionRows
  refine fun s => ⟨rfl, rfl, fun i m hi => ?_⟩
  obtain ⟨t, he, hread⟩ := partitionRead_of_instr s hi
  rw [he]
  refine ⟨fun h => ?negative, fun h => ?positive, fun h hpart => ?further, fun h hends => ?last⟩
  case negative => rw [hread.negative h]
  case positive => rw [hread.positive h]; rfl
  case further => rw [hread.zero h, nextPartition_further (by exact hpart)]
  case last =>
    have ⟨_, hpart, _⟩ := hends
    refine ⟨t, rfl, ?_⟩
    rw [hread.zero h, nextPartition_last (by exact hpart)]
    exact reconstructed_reconstruct (s := { s with seq := { s.seq with m := m, todo := 0, pos := .rice } }) hends

/-- Settles O37: all partitions are equal but for the order, which the first one lacks. -/
theorem partitionLengthsAddUp : Obligations.PartitionLengthsAddUp := by
  unfold Obligations.PartitionLengthsAddUp
  refine fun bs p P h => ⟨fun i _ => ?_, sum_partitionLength p h⟩
  rw [partitionLength]
  norm_cast

/-- Settles O40: the parity of `u` decides. -/
theorem zigzagUnfolds : Obligations.ZigzagUnfolds := by
  unfold Obligations.ZigzagUnfolds
  exact ⟨fun u => ⟨toInt_unzigzag u, unzigzag_eq_xor u⟩, by decide, by decide, by decide⟩

/-- Settles O35: each method's bits, then the partition order. -/
theorem residualHeaderRows : Obligations.ResidualHeaderRows := by
  unfold Obligations.ResidualHeaderRows
  refine fun s p m => ⟨?known, congrArg Host.Outcome.next (residualHeader_badMethod s m 0)⟩
  case known =>
    simp only [List.forall_mem_cons]
    exact ⟨congrArg Host.Outcome.next (residualHeader_known s (by decide) p),
      congrArg Host.Outcome.next (residualHeader_known s (by decide) p), by simp⟩

/-- Settles O38: the count of residuals still to come decides. -/
theorem riceRow : Obligations.RiceRow := by
  unfold Obligations.RiceRow
  intro s m q v
  have he : exec (.rice m q v) s = .next (s.residual (riceValue m q v)) := by
    rw [← unzigzag_riceFold]
    rfl
  rw [he]
  refine ⟨fun h => congrArg Host.Outcome.next (residual_further h _), fun h hpart => congrArg Host.Outcome.next ?_⟩
  exact (residual_endsPartition h _).trans (nextPartition_further hpart)

end Sys2Proof.Proofs
end

section
/-! PROOFS. The predictor's sum over the integers: reduced once, it is the 64-bit sum, and with small samples no
reduction changes a value. -/

namespace Sys2Proof.Machine

/-! ### The sum of R281 over the integers -/

/-- `Σ_j C[j]·X[i−j−1]` over the integers, the samples with the most recent first (R282). -/
def integerSum (cs xs : List Word) : Int := (List.zipWith (fun c x : Word => c.toInt * x.toInt) cs xs).sum

@[simp] theorem integerSum_nil_left (xs : List Word) : integerSum [] xs = 0 := rfl

@[simp] theorem integerSum_nil_right (cs : List Word) : integerSum cs [] = 0 := by
  rw [integerSum, List.zipWith_nil_right, List.sum_nil]

@[simp] theorem integerSum_cons (c x : Word) (cs xs : List Word) :
    integerSum (c :: cs) (x :: xs) = c.toInt * x.toInt + integerSum cs xs := rfl

/-- Reducing each product and each addition, or the integer sum once, gives one result (R282). -/
theorem weightedSum_eq_ofInt (cs xs : List Word) : weightedSum 0 cs xs = BitVec.ofInt 64 (integerSum cs xs) := by
  induction cs generalizing xs with
  | nil => simp [weightedSum]
  | cons c cs ih =>
    cases xs with
    | nil => simp [weightedSum]
    | cons x xs =>
      rw [weightedSum, weightedSum_acc, ih, integerSum_cons, BitVec.ofInt_add, BitVec.ofInt_mul, BitVec.ofInt_toInt,
        BitVec.ofInt_toInt, zero_add]

/-- The sum over the samples before index `i`, by their indices (R281). -/
theorem integerSum_reverse_take {cs xs : List Word} {i : Nat} (hcs : cs.length ≤ i) (hi : i ≤ xs.length) :
    integerSum cs (xs.take i).reverse =
      ((List.range cs.length).map fun j => (cs.getD j 0).toInt * (xs.getD (i - j - 1) 0).toInt).sum := by
  refine congrArg List.sum (List.ext_getElem (by simp; omega) fun j hj _ => ?_)
  have hj : j < cs.length := by simp at hj; omega
  have hx : i - j - 1 < xs.length := by omega
  have hrev : min i xs.length - 1 - j = i - j - 1 := by omega
  simp [List.getElem?_eq_getElem hj, List.getElem?_eq_getElem hx, hrev]

theorem abs_integerSum_le {cs xs : List Word} {a b : Int} (hc : ∀ c ∈ cs, |c.toInt| ≤ a) (hx : ∀ x ∈ xs, |x.toInt| ≤ b)
    (hlen : xs.length = cs.length) : |integerSum cs xs| ≤ cs.length * (a * b) := by
  induction cs generalizing xs with
  | nil => simp
  | cons c cs ih =>
    obtain ⟨x, xs, rfl⟩ := List.exists_cons_of_length_eq_add_one hlen
    rw [List.forall_mem_cons] at hc hx
    have hprod : |c.toInt * x.toInt| ≤ a * b := by
      rw [abs_mul]
      exact mul_le_mul hc.1 hx.1 (abs_nonneg _) ((abs_nonneg _).trans hc.1)
    calc |integerSum (c :: cs) (x :: xs)|
      _ ≤ |c.toInt * x.toInt| + |integerSum cs xs| := abs_add_le _ _
      _ ≤ a * b + cs.length * (a * b) := add_le_add hprod (ih hc.2 hx.2 (Nat.succ.inj hlen))
      _ = (c :: cs).length * (a * b) := by push_cast [List.length_cons]; ring

/-- The bound of R285: 32 products of a coefficient up to 2^14 and a sample below 2^40. -/
theorem abs_integerSum_lt {cs xs : List Word} (hp : cs.length ≤ 32) (hlen : xs.length = cs.length)
    (hc : ∀ c ∈ cs, |c.toInt| ≤ 2 ^ 14) (hx : ∀ x ∈ xs, |x.toInt| < 2 ^ 40) : |integerSum cs xs| < 2 ^ 59 := by
  have h := abs_integerSum_le hc (fun x hm => Int.le_sub_one_of_lt (hx x hm)) hlen
  omega

/-! ### The arithmetic shift and additions that do not wrap -/

/-- The arithmetic shift is the floor of the quotient (R283). -/
theorem toInt_sshiftRight_eq_div (x : Word) (sh : Nat) : (x.sshiftRight sh).toInt = x.toInt / 2 ^ sh := by
  rw [BitVec.toInt_sshiftRight, Int.shiftRight_eq_div_pow]
  norm_cast

/-- An integer within the range of `s64` is not changed by the reduction. -/
theorem toInt_ofInt_of_abs_lt {n : Int} (h : |n| < 2 ^ 63) : (BitVec.ofInt 64 n).toInt = n := by
  rw [abs_lt] at h
  exact BitVec.toInt_ofInt_eq_self (by decide) h.1.le h.2

theorem toInt_add_of_abs_lt {x y : Word} (h : |x.toInt + y.toInt| < 2 ^ 63) : (x + y).toInt = x.toInt + y.toInt := by
  rw [← toInt_ofInt_of_abs_lt h, BitVec.ofInt_add, BitVec.ofInt_toInt, BitVec.ofInt_toInt]

end Sys2Proof.Machine

namespace Sys2Proof.Proofs

open Sys2Proof.Machine Sys2Proof.Claims

/-- Settles O41: the recurrence of the prediction, with its 64-bit sum as the integer sum reduced once. -/
theorem predictorRecurrence : Obligations.PredictorRecurrence := by
  unfold Obligations.PredictorRecurrence
  refine ⟨?prediction, toInt_sshiftRight_eq_div⟩
  case prediction =>
    intro cs w rs sh hcs xs
    have hlen : xs.length = w.length + rs.length := length_predict ..
    refine ⟨hlen, fun _ => getElem?_predict_warmup, fun i hw hi => ?recurrence⟩
    case recurrence =>
      intro sum
      have hsum : weightedSum 0 cs (xs.take i).reverse = BitVec.ofInt 64 sum := by
        rw [weightedSum_eq_ofInt, integerSum_reverse_take (hcs.le.trans hw) (hi.le.trans hlen.ge), hcs]
      obtain ⟨k, rfl⟩ := Nat.exists_eq_add_of_le hw
      rw [← hsum, Nat.add_sub_cancel_left]
      exact getD_predict cs w rs sh (Nat.lt_of_add_lt_add_left hi)

/-- Settles O42: the bound on the sum, and a shift that does not enlarge it. -/
theorem noWrapOnSmallSamples : Obligations.NoWrapOnSmallSamples := by
  unfold Obligations.NoWrapOnSmallSamples
  intro cs xs r sh hp hlen hc hx hr sum
  have hsum : |sum| < 2 ^ 59 := abs_integerSum_lt hp hlen hc hx
  have hword : (weightedSum 0 cs xs).toInt = sum := by
    rw [weightedSum_eq_ofInt]
    exact toInt_ofInt_of_abs_lt (hsum.trans (by norm_num))
  have hshift : ((weightedSum 0 cs xs).sshiftRight sh).toInt = sum / 2 ^ sh := by
    rw [toInt_sshiftRight_eq_div, hword]
  refine ⟨hsum, hword, ?addition⟩
  case addition =>
    rw [← hshift]
    refine toInt_add_of_abs_lt ?_
    calc |r.toInt + ((weightedSum 0 cs xs).sshiftRight sh).toInt|
      _ ≤ |r.toInt| + |sum / 2 ^ sh| := by rw [hshift]; exact abs_add_le _ _
      _ ≤ |r.toInt| + |sum| := add_le_add_right (Int.abs_ediv_le_abs _ _) _
      _ < 2 ^ 62 + 2 ^ 59 := add_lt_add hr hsum
      _ < 2 ^ 63 := by norm_num

end Sys2Proof.Proofs
end

section
/-! PROOFS. What an element of each format can do, as a function of the state, and what reads over two streams that hold
the same bits give: the laws that the invariant, the end of a NEXT and its independence of history are proved from. -/

namespace Sys2Proof

open Sys2Proof.Machine

/-! ### Two streams that read alike -/

/-- `R` relates streams from which bits, bytes and padding read alike, and goes on to hold behind them. -/
structure ReadsAlike (R : Stream → Stream → Prop) : Prop where
  readBit : ∀ {r r'}, R r r' → (r.readBit = none ∧ r'.readBit = none) ∨
    ∃ b u u', r.readBit = some (b, u) ∧ r'.readBit = some (b, u') ∧ R u u'
  pull : ∀ {r r'}, R r r' → (r.pull = none ∧ r'.pull = none) ∨
    ∃ b u u', r.pull = some (b, u) ∧ r'.pull = some (b, u') ∧ R u u'
  bitsLeft : ∀ {r r'}, R r r' → r'.bitsLeft = r.bitsLeft
  padding : ∀ {r r'}, R r r' → r'.brN = r.brN ∧ r'.brCur.toNat % 2 ^ r'.brN = r.brCur.toNat % 2 ^ r.brN
  align : ∀ {r r'}, R r r' → R r.align r'.align

/-- The same outcome of decoding, with related streams behind it; a rejection is of one of the kinds of R187 to R189. -/
inductive Decoded.Alike (R : Stream → Stream → Prop) : Decoded → Decoded → Prop where
  | instr (i : Instr) {r r' : Stream} (h : R r r') : Alike R (.instr i r) (.instr i r')
  | illegal {k : ErrKind} (hk : k = .badSync ∨ k = .badReserved) {r r' : Stream} (h : R r r') :
      Alike R (.illegal k r) (.illegal k r')
  | stopped {r r' : Stream} (h : R r r') : Alike R (.stopped r) (.stopped r')
  | badWidth (n : Nat) : Alike R (.badWidth n) (.badWidth n)

/-- The same outcome of a read, with related streams behind it. -/
inductive ReadAlike (R : Stream → Stream → Prop) : Read → Read → Prop where
  | ok (v : Nat) {r r' : Stream} (h : R r r') : ReadAlike R (.ok v r) (.ok v r')
  | stop {r r' : Stream} (h : R r r') : ReadAlike R (.stop r) (.stop r')

/-- Equal streams read alike. -/
theorem readsAlike_eq : ReadsAlike Eq where
  readBit := by
    rintro r _ rfl
    cases h : r.readBit with
    | none => exact .inl ⟨rfl, rfl⟩
    | some p => exact .inr ⟨_, _, _, rfl, rfl, rfl⟩
  pull := by
    rintro r _ rfl
    cases h : r.pull with
    | none => exact .inl ⟨rfl, rfl⟩
    | some p => exact .inr ⟨_, _, _, rfl, rfl, rfl⟩
  bitsLeft := by rintro r _ rfl; rfl
  padding := by rintro r _ rfl; exact ⟨rfl, rfl⟩
  align := by rintro r _ rfl; rfl

section Alike

variable {R : Stream → Stream → Prop} (hR : ReadsAlike R) {r r' : Stream} {k k' : Nat → Stream → Decoded}

theorem ite_alike {c : Prop} [Decidable c] {d d' e e' : Decoded} (hd : d.Alike R d') (he : e.Alike R e') :
    (if c then d else e).Alike R (if c then d' else e') := by
  split <;> assumption

theorem decodeCa_alike (code : BitVec 4) (h : R r r') : (decodeCa code r).Alike R (decodeCa code r') := by
  unfold decodeCa
  split <;> exact .instr _ h

theorem decodeSsc_alike (code : BitVec 3) (h : R r r') : (decodeSsc code r).Alike R (decodeSsc code r') := by
  unfold decodeSsc
  split <;> exact .instr _ h

include hR

theorem readLoop_alike (n v : Nat) (h : R r r') : ReadAlike R (r.readLoop n v) (r'.readLoop n v) := by
  induction n generalizing r r' v with
  | zero => exact .ok v h
  | succ n ih =>
    rw [Stream.readLoop, Stream.readLoop]
    obtain ⟨h1, h2⟩ | ⟨b, u, u', h1, h2, hu⟩ := hR.readBit h <;> rw [h1, h2]
    · exact .stop h
    · exact ih _ hu

theorem unaryLoop_alike (fuel q : Nat) (h : R r r') : ReadAlike R (r.unaryLoop fuel q) (r'.unaryLoop fuel q) := by
  induction fuel generalizing r r' q with
  | zero => exact .stop h
  | succ fuel ih =>
    rw [Stream.unaryLoop, Stream.unaryLoop]
    obtain ⟨h1, h2⟩ | ⟨b, u, u', h1, h2, hu⟩ := hR.readBit h <;> rw [h1, h2]
    · exact .stop h
    · cases b with
      | true => exact .ok q hu
      | false => exact ih _ hu

theorem field_alike {n : Nat} (h : R r r') (hk : ∀ v u u', R u u' → (k v u).Alike R (k' v u')) :
    (field n r k).Alike R (field n r' k') := by
  have hread : ReadAlike R (r.read n) (r'.read n) := readLoop_alike hR n 0 h
  unfold field
  generalize r.read n = o at hread
  generalize r'.read n = o' at hread
  cases hread with
  | ok v hu => exact hk v _ _ hu
  | stop hu => exact .stopped hu

theorem sizedField_alike {n : Nat} (h : R r r') (hk : ∀ v u u', R u u' → (k v u).Alike R (k' v u')) :
    (sizedField n r k).Alike R (sizedField n r' k') := by
  unfold sizedField
  split
  · exact field_alike hR h hk
  · exact .badWidth n

theorem unaryField_alike (h : R r r') (hk : ∀ q u u', R u u' → (k q u).Alike R (k' q u')) :
    (unaryField r k).Alike R (unaryField r' k') := by
  have hread : ReadAlike R r.readUnary r'.readUnary := by
    unfold Stream.readUnary
    rw [hR.bitsLeft h]
    exact unaryLoop_alike hR _ 0 h
  unfold unaryField
  generalize r.readUnary = o at hread
  generalize r'.readUnary = o' at hread
  cases hread with
  | ok q hu => exact hk q _ _ hu
  | stop hu => exact .stopped hu

/-- The last field of an instruction. -/
theorem operand_alike {n : Nat} (row : Nat → Instr) (h : R r r') :
    (field n r fun v u => .instr (row v) u).Alike R (field n r' fun v u => .instr (row v) u) :=
  field_alike hR h fun _ _ _ hu => .instr _ hu

theorem decodeFh_alike (h : R r r') : (decodeFh r).Alike R (decodeFh r') :=
  field_alike hR h fun _ _ _ h1 => ite_alike (.illegal (.inl rfl) h1) <|
    field_alike hR h1 fun _ _ _ h2 => ite_alike (.illegal (.inr rfl) h2) <|
    field_alike hR h2 fun _ _ _ h3 => field_alike hR h3 fun _ _ _ h4 => field_alike hR h4 fun _ _ _ h5 =>
    field_alike hR h5 fun _ _ _ h6 => field_alike hR h6 fun _ _ _ h7 => field_alike hR h7 fun _ _ _ h8 =>
    ite_alike (.illegal (.inr rfl) h8) (.instr _ h8)

theorem decodeBsc_alike (code : BitVec 4) (h : R r r') : (decodeBsc code r).Alike R (decodeBsc code r') := by
  unfold decodeBsc
  split
  case h_7 | h_8 => exact operand_alike hR _ h
  all_goals exact .instr _ h

theorem decodeRc_alike (code : BitVec 4) (h : R r r') : (decodeRc code r).Alike R (decodeRc code r') := by
  unfold decodeRc
  split
  case h_13 | h_14 | h_15 => exact operand_alike hR _ h
  all_goals exact .instr _ h

theorem decodeType_alike (pad : BitVec 1) (t : BitVec 6) (h : R r r') :
    (decodeType pad t r).Alike R (decodeType pad t r') := by
  have flag (row : BitVec 1 → Instr) := operand_alike hR (n := 1) (fun v => row (BitVec.ofNat 1 v)) h
  exact ite_alike (flag _) <| ite_alike (flag _) <| ite_alike (.instr _ h) <| ite_alike (.instr _ h) <|
    ite_alike (flag _) <| ite_alike (flag _) <| ite_alike (flag _) <| ite_alike (flag _) <| ite_alike (flag _) <|
    ite_alike (.instr _ h) <| ite_alike (.instr _ h) <| ite_alike (.instr _ h) (flag _)

theorem decodeSfh_alike (strict : Bool) (h : R r r') : (decodeSfh strict r).Alike R (decodeSfh strict r') :=
  field_alike hR h fun _ _ _ h1 => field_alike hR h1 fun _ _ _ h2 =>
    ite_alike (.instr _ h2) (decodeType_alike hR _ _ h2)

theorem decodeLph_alike (h : R r r') : (decodeLph r).Alike R (decodeLph r') :=
  field_alike hR h fun _ _ _ h1 => ite_alike (.instr _ h1) <| field_alike hR h1 fun _ _ _ h2 =>
    ite_alike (.instr _ h2) (.instr _ h2)

theorem decodeRes_alike (h : R r r') : (decodeRes r).Alike R (decodeRes r') :=
  field_alike hR h fun _ _ _ h1 => ite_alike (.instr _ h1) <| field_alike hR h1 fun _ _ _ h2 =>
    ite_alike (.instr _ h2) (.instr _ h2)

theorem decodeRice_alike (m : Nat) (h : R r r') : (decodeRice m r).Alike R (decodeRice m r') :=
  unaryField_alike hR h fun _ _ _ h1 => ite_alike (.instr _ h1) <|
    sizedField_alike hR h1 fun _ _ _ h2 => .instr _ h2

theorem decodePad_alike (h : R r r') : (decodePad r).Alike R (decodePad r') := by
  obtain ⟨hn, hv⟩ := hR.padding h
  unfold decodePad
  rw [hv, hn]
  exact .instr _ (hR.align h)

theorem decodeFt_alike (h : R r r') : (decodeFt r).Alike R (decodeFt r') := by
  unfold decodeFt
  obtain ⟨h1, h2⟩ | ⟨b0, u, u', h1, h2, hu⟩ := hR.pull h <;> rw [h1, h2]
  · exact .stopped h
  · dsimp only
    obtain ⟨h3, h4⟩ | ⟨b1, w, w', h3, h4, hw⟩ := hR.pull hu <;> rw [h3, h4]
    · exact .stopped hu
    · exact .instr _ hw

/-- Every format of the stream decodes alike. -/
theorem decode_alike (strict : Bool) {f : Format} (hf : f ≠ .cmd) (h : R r r') :
    (decode strict f r).Alike R (decode strict f r') := by
  cases f with
  | cmd => exact absurd rfl hf
  | fh => exact decodeFh_alike hR h
  | ca => exact field_alike hR h fun _ _ _ h1 => decodeCa_alike _ h1
  | ssc => exact field_alike hR h fun _ _ _ h1 => decodeSsc_alike _ h1
  | bsc => exact field_alike hR h fun _ _ _ h1 => decodeBsc_alike hR _ h1
  | rc => exact field_alike hR h fun _ _ _ h1 => decodeRc_alike hR _ h1
  | u8 | u8cont | crc8 | part4 | part5 => exact operand_alike hR _ h
  | sfh => exact decodeSfh_alike hR strict h
  | wsuffix => exact unaryField_alike hR h fun _ _ _ h1 => .instr _ h1
  | smp | coef => exact sizedField_alike hR h fun _ _ _ h1 => .instr _ h1
  | lph => exact decodeLph_alike hR h
  | res => exact decodeRes_alike hR h
  | rice => exact decodeRice_alike hR _ h
  | pad => exact decodePad_alike hR h
  | ft => exact decodeFt_alike hR h

end Alike

end Sys2Proof

namespace Sys2Proof.Machine

/-- From streams that read alike the element at the same position is read alike: beside the stream it depends on the
sequencer, on `P_PAD_STRICT` and, for a sample, on its width. -/
theorem fetch_alike {R : Stream → Stream → Prop} (hR : ReadsAlike R) {s s' : State} (hseq : s'.seq = s.seq)
    (hparams : s'.params = s.params) (hwidth : s.seq.pos = .smp → s'.width = s.width) (h : R s.stream s'.stream) :
    s.fetch.Alike R s'.fetch := by
  unfold State.fetch
  dsimp only
  rw [hseq, hparams]
  cases hp : s.seq.pos with
  | ca => exact decodeCa_alike _ h
  | ssc => exact decodeSsc_alike _ h
  | bsc => exact decodeBsc_alike hR _ h
  | rc => exact decodeRc_alike hR _ h
  | smp =>
    dsimp only
    rw [hwidth hp]
    exact decode_alike hR _ nofun h
  | part =>
    dsimp only
    split <;> exact decode_alike hR _ nofun h
  | frame | numLead | numCont | crc8 | subHdr | wsuffix | lph | coef | res | rice | pad | foot =>
    exact decode_alike hR _ nofun h

/-! ### What an element of each format can do -/

/-- The comparison of the CRC-8 field (R199). -/
def State.checkHeader (s : State) (stored : BitVec 8) : State :=
  let s1 := { s with hdr := { s.hdr with crc8 := stored } }
  if stored = s.dp.crc8 then s1.gotoSubframe 0 else s1.raise .badChecksum 8

/-- The comparison of the footer (R300, R301). -/
def State.checkFooter (s : State) (stored : BitVec 16) : State :=
  let s1 := { s with ftCrc16 := stored }
  if s.params.crc16Check ∧ stored ≠ s.dp.crc16 then s1.raise .badChecksum 16 else s1.frameDone

/-- What executing an element of a format can do, as a function of the state whose stream stands behind it: one
constructor per shared operation, with what the format's rows say of the operand. -/
inductive FormatOp : Format → (State → State) → Prop where
  /-- the rows that fault whatever the state -/
  | refused (f : Format) {k : ErrKind} (hk : coreRaises k = true) (hne : k ≠ .badChecksum) :
      FormatOp f fun s => s.raise k 0
  | fixedPart (fix : FixedPart) : FormatOp .fh fun s => { s with seq := { s.seq with fix := fix, pos := .ca } }
  | channels (ca : BitVec 4) : FormatOp .ca fun s => s.channelAssignment ca
  | configuredSize : FormatOp .ssc fun s => s.sampleSize s.cfgBps
  | sampleSize (v : BitVec 6) : FormatOp .ssc fun s => s.sampleSize v
  | numberLead {extra : Nat} {v : BitVec 36} (hextra : extra ≤ 6) (hv : v.toNat < 2 ^ (36 - 6 * extra)) :
      FormatOp .u8 fun s => s.utf8Lead extra v
  | numberCont (payload : BitVec 6) : FormatOp .u8cont fun s => s.utf8Cont payload
  | blockSize {v : BitVec 17} (hpos : 1 ≤ v.toNat) (hmax : v.toNat ≤ Config.maxBlock) :
      FormatOp .bsc fun s => s.blockSize v
  | configuredRate : FormatOp .rc fun s => s.sampleRate s.cfgRate
  | sampleRate (v : BitVec 20) : FormatOp .rc fun s => s.sampleRate v
  | headerCheck (stored : BitVec 8) : FormatOp .crc8 fun s => s.checkHeader stored
  | subframeHeader (pad : BitVec 1) (t : BitVec 6) (wflag : BitVec 1) :
      FormatOp .sfh fun s => s.subframeHeader pad t wflag
  | wastedBits (zeros : Nat) : FormatOp .wsuffix fun s => s.acceptHeader s.seq.kind s.seq.order (zeros + 1)
  | sample (width : Nat) (v : Word) : FormatOp (.smp width) fun s => s.sample v
  | lpcHeader (prec : BitVec 4) (shift : BitVec 5) : FormatOp .lph fun s => s.lpcHeader prec shift
  | coefficient (width : Nat) (v : Word) : FormatOp (.coef width) fun s => s.coefficient v
  | residualHeader (method : BitVec 2) (porder : BitVec 4) : FormatOp .res fun s => s.residualHeader method porder
  | partition4 {m : BitVec 5} (hm : m.toNat ≤ 15) : FormatOp .part4 fun s => s.partition 4 m
  | partition5 (m : BitVec 5) : FormatOp .part5 fun s => s.partition 5 m
  | residual (m : Nat) (v : Word) : FormatOp (.rice m) fun s => s.residual v
  | aligned : FormatOp .pad fun s => State.goto (s.withStream s.stream.align) .foot
  | footerCheck (stored : BitVec 16) : FormatOp .ft fun s => s.checkFooter stored

/-- The payload of a lead byte fits below its continuation bytes (R102). -/
theorem toNat_payload_lt {n : Nat} (v : BitVec n) {bits : Nat} (h : n ≤ bits) : (v.zeroExtend 36).toNat < 2 ^ bits := by
  have hv : (v.zeroExtend 36).toNat ≤ v.toNat := by
    rw [BitVec.zeroExtend, BitVec.toNat_setWidth]
    exact Nat.mod_le _ _
  exact (hv.trans_lt v.isLt).trans_le (Nat.pow_le_pow_right (by decide) h)

/-- A block size written as its tail plus one is within 1 to 65536 (R194). -/
theorem toNat_blockTail {n : Nat} (tail : BitVec n) (h : n ≤ 16) :
    1 ≤ (tail.zeroExtend 17 + 1).toNat ∧ (tail.zeroExtend 17 + 1).toNat ≤ Config.maxBlock := by
  have ht : tail.toNat < 2 ^ 16 := tail.isLt.trans_le (Nat.pow_le_pow_right (by decide) h)
  have hv : (tail.zeroExtend 17 + 1).toNat = tail.toNat + 1 := by
    rw [BitVec.zeroExtend, BitVec.toNat_add, BitVec.toNat_setWidth, Nat.mod_eq_of_lt (a := tail.toNat) (by omega)]
    exact Nat.mod_eq_of_lt (show tail.toNat + 1 < 2 ^ 17 by omega)
  rw [hv, Config.maxBlock]
  omega

/-- Every instruction of the stream is one of the operations of its format. -/
theorem exec_formatOp {i : Instr} (hi : i.format ≠ .cmd) :
    ∃ op, FormatOp i.format op ∧ ∀ s, exec i s = .next (op s) := by
  cases i with
  | next | reset => exact absurd rfl hi
  | frame => exact ⟨_, .fixedPart _, fun _ => rfl⟩
  | ca0 | ca1 | ca2 | ca3 | ca4 | ca5 | ca6 | ca7 | ca8 | ca9 | ca10 | ca11 | ca12 | ca13 | ca14 | ca15 =>
    exact ⟨_, .channels _, fun _ => rfl⟩
  | ssc0 => exact ⟨_, .configuredSize, fun _ => rfl⟩
  | ssc1 | ssc2 | ssc4 | ssc5 | ssc6 => exact ⟨_, .sampleSize _, fun _ => rfl⟩
  | u8Lead1 payload => exact ⟨_, .numberLead (Nat.zero_le 6) (toNat_payload_lt payload (by decide)), fun _ => rfl⟩
  | u8Lead2 payload =>
    exact ⟨_, .numberLead (extra := 1) (by decide) (toNat_payload_lt payload (by decide)), fun _ => rfl⟩
  | u8Lead3 payload =>
    exact ⟨_, .numberLead (extra := 2) (by decide) (toNat_payload_lt payload (by decide)), fun _ => rfl⟩
  | u8Lead4 payload =>
    exact ⟨_, .numberLead (extra := 3) (by decide) (toNat_payload_lt payload (by decide)), fun _ => rfl⟩
  | u8Lead5 payload =>
    exact ⟨_, .numberLead (extra := 4) (by decide) (toNat_payload_lt payload (by decide)), fun _ => rfl⟩
  | u8Lead6 payload =>
    exact ⟨_, .numberLead (extra := 5) (by decide) (toNat_payload_lt payload (by decide)), fun _ => rfl⟩
  | u8Lead7 => exact ⟨_, .numberLead (extra := 6) (by decide) (by decide), fun _ => rfl⟩
  | u8Cont => exact ⟨_, .numberCont _, fun _ => rfl⟩
  | bsc1 | bsc2 | bsc3 | bsc4 | bsc5 | bsc8 | bsc9 | bsc10 | bsc11 | bsc12 | bsc13 | bsc14 | bsc15 =>
    exact ⟨_, .blockSize (by decide) (by decide), fun _ => rfl⟩
  | bsc6 tail | bsc7 tail =>
    obtain ⟨hpos, hmax⟩ := toNat_blockTail tail (by decide)
    exact ⟨_, .blockSize hpos hmax, fun _ => rfl⟩
  | rc0 => exact ⟨_, .configuredRate, fun _ => rfl⟩
  | rc1 | rc2 | rc3 | rc4 | rc5 | rc6 | rc7 | rc8 | rc9 | rc10 | rc11 | rc12 | rc13 | rc14 =>
    exact ⟨_, .sampleRate _, fun _ => rfl⟩
  | ssc3 | ssc7 | u8BadLead1 | u8BadLead8 | u8BadCont0 | u8BadCont3 | bsc0 | rc15 | subBadPad =>
    refine ⟨_, .refused _ ?_ ?_, fun _ => rfl⟩ <;> decide
  | crc8 stored => exact ⟨_, .headerCheck stored, fun _ => rfl⟩
  | subConstant | subVerbatim | subFixed0 | subFixed1 | subFixed2 | subFixed3 | subFixed4 | subLpc | subRsvd00001x
  | subRsvd0001xx | subRsvd001101 | subRsvd00111x | subRsvd01xxxx =>
    exact ⟨_, .subframeHeader _ _ _, fun _ => rfl⟩
  | wsuffix zeros => exact ⟨_, .wastedBits zeros, fun _ => rfl⟩
  | smp => exact ⟨_, .sample _ _, fun _ => rfl⟩
  | lph | lphBadPrec | lphBadShift => exact ⟨_, .lpcHeader _ _, fun _ => rfl⟩
  | coef => exact ⟨_, .coefficient _ _, fun _ => rfl⟩
  | resRice4 | resRice5 | resBadMethod => exact ⟨_, .residualHeader _ _, fun _ => rfl⟩
  | part4 m =>
    have hm : (m.zeroExtend 5).toNat ≤ 15 := by revert m; decide
    exact ⟨_, .partition4 hm, fun _ => rfl⟩
  | part4Esc => exact ⟨_, .partition4 (by decide), fun _ => rfl⟩
  | part5 | part5Esc => exact ⟨_, .partition5 _, fun _ => rfl⟩
  | rice => exact ⟨_, .residual _ _, fun _ => rfl⟩
  | padbits => exact ⟨_, .aligned, fun _ => rfl⟩
  | foot stored => exact ⟨_, .footerCheck stored, fun _ => rfl⟩

/-- The position at which elements of a format are read (R304); a host command has none. -/
def formatPos : Format → Pos
  | .cmd => .frame
  | .fh => .frame
  | .ca => .ca
  | .ssc => .ssc
  | .u8 => .numLead
  | .u8cont => .numCont
  | .bsc => .bsc
  | .rc => .rc
  | .crc8 => .crc8
  | .sfh => .subHdr
  | .wsuffix => .wsuffix
  | .smp _ => .smp
  | .lph => .lph
  | .coef _ => .coef
  | .res => .res
  | .part4 => .part
  | .part5 => .part
  | .rice _ => .rice
  | .pad => .pad
  | .ft => .foot

theorem pos_eq_of_format {s : State} {f : Format} (h : f = s.format) : s.seq.pos = formatPos f := by
  subst h
  unfold State.format
  cases s.seq.pos with
  | part =>
    dsimp only
    split <;> rfl
  | _ => rfl

/-- What one element does from the stream it was opened with: it is read as an instruction and executed, it is rejected by
name, or the source ends inside it. -/
inductive ElementRun (s : State) : Decoded → State → Prop where
  | executed {i : Instr} {r : Stream} {op : State → State} (hi : i.format = s.format) (h : FormatOp s.format op)
      (hx : ∀ u, exec i u = .next (op u)) : ElementRun s (.instr i r) (op (s.withStream r))
  | rejected {k : ErrKind} {r : Stream} : ElementRun s (.illegal k r) ((s.withStream r).raise k 0)
  | ended {r : Stream} :
      ElementRun s (.stopped r) ((s.withStream r).endOfInput (s.seq.pos = .frame ∧ s.src.bytes = []))

theorem stepElement_run {s t : State} (hs : s.sampleOk) (h : stepElement s = .next t) :
    ElementRun s s.openElement.fetch t := by
  have ha := fetch_answers (sampleOk_fetched hs s.openElement.stream)
  have hnamed := fetch_named s.openElement
  rw [State.withStream_self, format_openElement] at ha
  rw [stepElement, if_pos (sourceFits_of_stepElement h)] at h
  dsimp only at h
  split at h
  · next i r hf =>
    rw [hf] at ha ⊢
    have hi : i.format = s.format := ha
    obtain ⟨op, hop, hx⟩ := exec_formatOp (hi ▸ format_ne_cmd s)
    rw [openElement_withStream, hx] at h
    cases h
    exact .executed hi (hi ▸ hop) hx
  · next k r hf =>
    cases h
    rw [hf, openElement_withStream]
    exact .rejected
  · next r hf =>
    cases h
    rw [hf, openElement_withStream]
    exact .ended
  · next hf =>
    rw [hf] at hnamed
    cases hnamed
  · cases h

end Sys2Proof.Machine
end

section
/-! PROOFS. The invariant of the machine: each element, executed where its position's part of the invariant holds, leaves
the next position's part or ends the NEXT as `STATE` asks. -/

namespace Sys2Proof.Machine

open Sys2Proof.Claims

/-! ### The invariant without its positions -/

/-- What the invariant asks in BUSY at every position. It reads of `s` only status, fault registers, unread bits, sample
memory and window selector, so a state prepared from `s` that agrees in them has it by definition. -/
def State.Running (s : State) : Prop :=
  s.status = .busy ∧ s.dp.brN ≤ 7 ∧ (s.err = .none ∧ s.errInner = 0) ∧ s.memOk ∧ s.dSel &&& 0xFFF8#32 = 0#32

theorem inv_of_running {s : State} (h : s.Running) (hp : s.posOk) : s.Inv := by
  obtain ⟨hb, hn, he, hm, hw⟩ := h
  refine ⟨hn, ?_, hm, hw, ?_, fun hne => absurd hb hne⟩
  · rwa [State.errOk, hb]
  · rwa [State.statusOk, hb]

theorem running_of_inv {s : State} (hi : s.Inv) (hb : s.status = .busy) : s.Running ∧ s.posOk := by
  obtain ⟨hn, he, hm, hw, hst, -⟩ := hi
  rw [State.errOk, hb] at he
  rw [State.statusOk, hb] at hst
  exact ⟨⟨hb, hn, he, hm, hw⟩, hst⟩

theorem nch_bounds {s : State} (hc : s.channelsOk) : 1 ≤ s.hdr.nch.toNat ∧ s.hdr.nch.toNat ≤ 8 := by
  obtain ⟨hca, hnch⟩ := hc
  have hall : ∀ ca : BitVec 4, ca.toNat ≤ 10 → 1 ≤ (channelCount ca).toNat ∧ (channelCount ca).toNat ≤ 8 := by decide
  rw [hnch]
  exact hall _ hca

theorem lpc_order_bounds {s : State} (hk : kindOk s.cur.kind s.cur.order = true) (hkind : s.cur.kind = .lpc) :
    1 ≤ s.order ∧ s.order ≤ 32 := by
  rw [hkind, kindOk, Bool.and_eq_true, decide_eq_true_iff, decide_eq_true_iff] at hk
  exact hk

theorem fixed_order_le {s : State} (hk : kindOk s.cur.kind s.cur.order = true) (hkind : s.cur.kind = .fixed) :
    s.order ≤ 4 := by
  rw [hkind, kindOk, decide_eq_true_iff] at hk
  exact hk

/-- Where a sample comes next, its index is within the block of a VERBATIM subframe, or within the warm-up. -/
theorem posOk_smp {s : State} (hpos : s.seq.pos = .smp) :
    s.posOk ↔ s.teesAre false true ∧ s.bodyOk ∧
      (s.cur.kind = .verbatim → s.seq.idx < s.hdr.bs.toNat ∧ s.seq.x.length = s.seq.idx) ∧
      (s.predictive → s.seq.idx < s.order) := by
  rw [State.posOk, hpos, State.predictive]
  cases s.cur.kind <;> simp

section Running

variable {s : State} (h : s.Running)
include h

/-- A fault may interrupt the frame anywhere. -/
theorem inv_raise {k : ErrKind} {info : BitVec 32} (hk : coreRaises k = true)
    (hsum : k = .badChecksum → info = 8 ∨ info = 16) (hinfo : k ≠ .badChecksum → k ≠ .ioError → info = 0) :
    (s.raise k info).Inv := by
  obtain ⟨-, hn, -, hm, hw⟩ := h
  exact ⟨hn, ⟨hk, hsum, hinfo⟩, hm, hw, trivial, fun _ => rfl⟩

theorem inv_raise_zero {k : ErrKind} (hk : coreRaises k = true) (hne : k ≠ .badChecksum) : (s.raise k 0).Inv :=
  inv_raise h hk (fun he => absurd he hne) fun _ _ => rfl

theorem inv_endOfInput {first : Bool} (hfirst : first = true → s.dp.brN = 0) : (s.endOfInput first).Inv := by
  unfold State.endOfInput
  split
  · exact inv_raise h rfl nofun fun _ hne => absurd rfl hne
  · split
    · next hf =>
      obtain ⟨-, hn, -, hm, hw⟩ := h
      exact ⟨hn, ⟨rfl, rfl⟩, hm, hw, ⟨hfirst hf, rfl, rfl⟩, fun _ => rfl⟩
    · exact inv_raise_zero h rfl nofun

/-! ### The header -/

theorem inv_channelAssignment (hp : s.headerPosOk) (ca : BitVec 4) : (s.channelAssignment ca).Inv := by
  unfold State.channelAssignment
  split
  · exact inv_raise_zero h rfl nofun
  · next hca => exact inv_of_running h ⟨hp, Nat.le_of_not_lt hca, rfl⟩

theorem inv_utf8Lead (hp : s.headerPosOk) (hc : s.channelsOk) {extra : Nat} {v : BitVec 36} (hextra : extra ≤ 6)
    (hv : v.toNat < 2 ^ (36 - 6 * extra)) : (s.utf8Lead extra v).Inv := by
  unfold State.utf8Lead
  split
  · exact inv_of_running h ⟨hp, hc⟩
  · next hne => exact inv_of_running h ⟨hp, hc, Nat.one_le_iff_ne_zero.2 hne, hextra, hv⟩

/-- A continuation byte adds 6 bits to the number and takes one byte off what is left (R161). -/
theorem inv_utf8Cont (hpos : s.seq.pos = .numCont) (hp : s.headerPosOk) (hc : s.channelsOk) (hlow : 1 ≤ s.seq.numLeft)
    (hhigh : s.seq.numLeft ≤ 6) (hnum : s.seq.num.toNat < 2 ^ (36 - 6 * s.seq.numLeft)) (payload : BitVec 6) :
    (s.utf8Cont payload).Inv := by
  obtain hl | hl := Nat.eq_or_lt_of_le hlow
  · rw [utf8Cont_last hl.symm]
    exact inv_of_running h ⟨hp, hc⟩
  · rw [utf8Cont_more hl]
    refine inv_of_running h ?_
    unfold State.posOk
    rw [hpos]
    refine ⟨hp, hc, ?_, ?_, ?_⟩
    · dsimp only; omega
    · dsimp only; omega
    · have hpay := payload.isLt
      have hexp : 2 ^ (36 - 6 * (s.seq.numLeft - 1)) = 2 ^ (36 - 6 * s.seq.numLeft) * 64 := by
        rw [show 36 - 6 * (s.seq.numLeft - 1) = 36 - 6 * s.seq.numLeft + 6 by omega, pow_add]
        rfl
      dsimp only
      rw [hexp, BitVec.toNat_ofNat]
      refine (Nat.mod_le _ _).trans_lt ?_
      omega

/-! ### From subframe to subframe -/

/-- The head of the subframe loop: the channels before `c` are written (R298). -/
theorem inv_gotoSubframe (ht : s.teesAre false true) (hh : s.headerOk) {c : Nat} (hcov : ∀ c' < c, s.covered c') :
    (s.gotoSubframe c).Inv := by
  refine inv_of_running h ?_
  unfold State.posOk
  rw [State.gotoSubframe_seq]
  by_cases hc : c < s.hdr.nch.toNat
  · rw [if_pos hc]
    exact ⟨ht, hh, hc, hcov⟩
  · rw [if_neg hc]
    exact ⟨ht, hh, fun c' hc' => hcov c' (by exact hc'.trans_le (Nat.le_of_not_lt hc))⟩

/-- The comparison of the CRC-8 field, with its tee off (R199). -/
theorem inv_checkHeader (ht : s.teesAre false true) (hc : s.channelsOk) (hb : s.blockOk) (stored : BitVec 8) :
    (s.checkHeader stored).Inv := by
  unfold State.checkHeader
  dsimp only
  split
  · next hs =>
    exact inv_gotoSubframe (s := { s with hdr := { s.hdr with crc8 := stored } }) h ht ⟨hc, hb, hs⟩ nofun
  · exact inv_raise (s := { s with hdr := { s.hdr with crc8 := stored } }) h rfl (fun _ => .inl rfl)
      fun hne => absurd rfl hne

/-- The comparison of the footer, with its tee off (R300, R301). -/
theorem inv_checkFooter (ht : s.teesAre false false) (hn : s.dp.brN = 0) (hh : s.headerOk)
    (hcov : ∀ c < s.hdr.nch.toNat, s.covered c) (stored : BitVec 16) : (s.checkFooter stored).Inv := by
  unfold State.checkFooter
  dsimp only
  split
  · exact inv_raise (s := { s with ftCrc16 := stored }) h rfl (fun _ => .inr rfl) fun hne => absurd rfl hne
  · next hs =>
    obtain ⟨-, hn7, he, hm, hw⟩ := h
    refine ⟨hn7, he, hm, hw, ⟨⟨hn, ht⟩, hh, hcov, fun hcheck => ?_⟩, fun _ => rfl⟩
    exact by_contra fun hne => hs ⟨hcheck, hne⟩

/-- The finish of a subframe keeps the form of the sample memory (R38). -/
theorem memOk_finishSubframe (hs : s.subOk) : s.finishSubframe.memOk := by
  obtain ⟨-, -, -, ⟨hwf, hlim⟩, -⟩ := h
  obtain ⟨⟨hchan, ⟨-, hbs⟩, -⟩, hch, -⟩ := hs
  obtain ⟨-, hnch⟩ := nch_bounds hchan
  refine ⟨memWf_finishSubframe hwf, mem_memWriteBlock_lt hlim ?_⟩
  rw [List.length_map, List.length_take, sampleAddr]
  unfold Config.maxChannels Config.maxBlock at *
  omega

omit h in
/-- With a sample for each index the finish leaves the current channel written, and the ones before it as they were. -/
theorem covered_finishSubframe (hs : s.subOk) (hx : s.hdr.bs.toNat ≤ s.seq.x.length) {c : Nat} (hc : c < s.seq.ch + 1) :
    s.finishSubframe.covered c := by
  obtain ⟨⟨-, ⟨-, hbs⟩, -⟩, -, hcov⟩ := hs
  intro i hi
  have hi : i < s.hdr.bs.toNat := hi
  rw [memRead_finishSubframe, Nat.min_eq_left hx, sampleAddr, sampleAddr]
  unfold Config.maxBlock at *
  split
  · rw [List.getElem?_eq_getElem (by omega)]
    rfl
  · exact hcov c (by omega) i hi

theorem inv_finishSubframe (ht : s.teesAre false true) (hs : s.subOk) (hx : s.hdr.bs.toNat ≤ s.seq.x.length) :
    s.finishSubframe.Inv := by
  have hm := memOk_finishSubframe h hs
  have hcov := fun c => covered_finishSubframe hs hx (c := c)
  obtain ⟨hb, hn, he, -, hw⟩ := h
  obtain ⟨hh, -, -⟩ := hs
  exact inv_gotoSubframe (s := { s with d := s.finishSubframe.d }) ⟨hb, hn, he, hm, hw⟩ ht hh hcov

/-! ### The header and the body of a subframe -/

/-- A body starts at its kind's first element (R304). -/
theorem inv_startBody (ht : s.teesAre false true) (hb : s.bodyOk) : s.startBody.Inv := by
  obtain ⟨hs, hk, hw⟩ := hb
  obtain ⟨⟨-, ⟨hbs, -⟩, -⟩, -, -⟩ := id hs
  rw [startBody_of_samples hbs]
  by_cases hfix : s.cur.kind = .fixed ∧ s.order = 0
  · obtain ⟨hkind, -⟩ := id hfix
    rw [if_pos hfix]
    exact inv_of_running h ⟨ht, ⟨hs, hk, hw⟩, .inl hkind⟩
  · rw [if_neg hfix]
    refine inv_of_running h ((posOk_smp rfl).2 ⟨ht, ⟨hs, hk, hw⟩, fun _ => ⟨hbs, rfl⟩, ?_⟩)
    rintro (hkind | hkind)
    · exact Nat.pos_of_ne_zero fun h0 => hfix ⟨hkind, h0⟩
    · exact (lpc_order_bounds hk hkind).1

/-- An accepted header has a kind and an order of R109 and a sample bit left (R232, R233). -/
theorem inv_acceptHeader (ht : s.teesAre false true) (hs : s.subOk) {kind : SubKind} {order : BitVec 6}
    (hk : kindOk kind order = true) (w : Nat) : (s.acceptHeader kind order w).Inv := by
  obtain ⟨-, he⟩ | ⟨hw, he⟩ := acceptHeader_cases s kind order w <;> rw [he]
  · exact inv_raise_zero h rfl nofun
  · obtain ⟨⟨hchan, -, -⟩, hch, -⟩ := id hs
    obtain ⟨-, hnch⟩ := nch_bounds hchan
    have hcur := sub_setIfInBounds (s := s) (hch.trans_le hnch)
      { kind := kind, order := order, wasted := BitVec.ofNat 6 w }
    refine inv_startBody (s := { s with subs := _ }) h ht ⟨hs, ?_, le_sampleBits_of_accepted hw⟩
    rw [State.cur, hcur]
    exact hk

omit h in
theorem kindOk_typeOf : ∀ (t : BitVec 6) (kind : SubKind) (p : BitVec 6), typeOf t = some (kind, p) →
    kindOk kind p = true := by
  have hall : ∀ t : BitVec 6, (typeOf t).all (fun e => kindOk e.1 e.2) = true := by decide
  intro t kind p ht
  have := hall t
  rwa [ht] at this

theorem inv_subframeHeader (ht : s.teesAre false true) (hs : s.subOk) (pad : BitVec 1) (t : BitVec 6)
    (wflag : BitVec 1) : (s.subframeHeader pad t wflag).Inv := by
  unfold State.subframeHeader
  split
  · exact inv_raise_zero h rfl nofun
  · split
    · exact inv_raise_zero h rfl nofun
    · next kind p hkind =>
      have hk := kindOk_typeOf t kind p hkind
      split
      · exact inv_acceptHeader h ht hs hk 0
      · exact inv_of_running h ⟨ht, hs, hk⟩

/-! ### The elements of a body -/

/-- A warm-up sample: the last one leads to the LPC header or to the residuals (R238, R244). -/
theorem inv_sample_warmup (ht : s.teesAre false true) (hb : s.bodyOk) (hkind : s.predictive) (v : Word) :
    (s.sample v).Inv := by
  rw [sample_warmup hkind]
  by_cases hi : s.seq.idx + 1 < s.order
  · rw [if_pos hi, if_pos hi]
    refine inv_of_running h ((posOk_smp rfl).2 ⟨ht, hb, fun hv => ?_, fun _ => hi⟩)
    obtain hk | hk := hkind <;> exact nomatch hk.symm.trans hv
  · rw [if_neg hi, if_neg hi]
    split
    · exact inv_of_running h ⟨ht, hb, hkind⟩
    · next hf => exact inv_of_running h ⟨ht, hb, hkind.resolve_left hf⟩

/-- A sample: the last one of a CONSTANT or VERBATIM subframe finishes it (R236, R237). -/
theorem inv_sample (hpos : s.seq.pos = .smp) (hp : s.posOk) (v : Word) : (s.sample v).Inv := by
  obtain ⟨ht, hb, hverb, -⟩ := (posOk_smp hpos).1 hp
  obtain ⟨hs, -, -⟩ := id hb
  cases hkind : s.cur.kind with
  | constant =>
    rw [sample_constant hkind]
    exact inv_finishSubframe (s := { s with seq := _ }) h ht hs (by simp)
  | verbatim =>
    obtain ⟨hlt, hx⟩ := hverb hkind
    by_cases hi : s.seq.idx + 1 < s.hdr.bs.toNat
    · rw [sample_verbatim hkind hi]
      refine inv_of_running h ((posOk_smp rfl).2 ⟨ht, hb, fun _ => ⟨hi, by simp [hx]⟩, ?_⟩)
      rintro (hk | hk) <;> exact nomatch hkind.symm.trans hk
    · rw [sample_verbatim_last hkind (Nat.le_of_not_lt hi)]
      refine inv_finishSubframe (s := { s with seq := _ }) h ht hs ?_
      rw [List.length_append, hx]
      exact Nat.le_of_not_lt hi
  | fixed => exact inv_sample_warmup h ht hb (.inl hkind) v
  | lpc => exact inv_sample_warmup h ht hb (.inr hkind) v

theorem inv_lpcHeader (ht : s.teesAre false true) (hb : s.bodyOk) (hkind : s.cur.kind = .lpc) (prec : BitVec 4)
    (shift : BitVec 5) : (s.lpcHeader prec shift).Inv := by
  unfold State.lpcHeader
  split
  · exact inv_raise_zero h rfl nofun
  · next hprec =>
    split
    · exact inv_raise_zero h rfl nofun
    · obtain ⟨-, hk, -⟩ := id hb
      obtain ⟨hlow, -⟩ := lpc_order_bounds hk hkind
      have hlt : prec.toNat < 15 := by
        have hne : prec.toNat ≠ 15 := fun he => hprec (BitVec.eq_of_toNat_eq he)
        omega
      exact inv_of_running h ⟨ht, hb, hkind, hlt, hlow⟩

theorem inv_coefficient (ht : s.teesAre false true) (hb : s.bodyOk) (hkind : s.cur.kind = .lpc)
    (hprec : s.seq.prec.toNat < 15) (v : Word) : (s.coefficient v).Inv := by
  rw [coefficient_eq]
  by_cases hi : s.seq.idx + 1 < s.order
  · rw [if_pos hi, if_pos hi]
    exact inv_of_running h ⟨ht, hb, hkind, hprec, hi⟩
  · rw [if_neg hi, if_neg hi]
    exact inv_of_running h ⟨ht, hb, .inr hkind⟩

/-! ### The residuals -/

/-- A residual section starts with no residual and with a partition order that divides the block (R266). -/
theorem inv_residualHeader (ht : s.teesAre false true) (hb : s.bodyOk) (hkind : s.predictive) (method : BitVec 2)
    (porder : BitVec 4) : (s.residualHeader method porder).Inv := by
  unfold State.residualHeader
  split
  · exact inv_raise_zero h rfl nofun
  · split
    · exact inv_raise_zero h rfl nofun
    · next hdiv =>
      have hmod : s.hdr.bs.toNat % 2 ^ porder.toNat = 0 := by
        obtain h0 | h0 := Nat.eq_zero_or_pos porder.toNat
        · rw [h0, pow_zero, Nat.mod_one]
        · exact by_contra fun hne => hdiv ⟨h0, hne⟩
      exact inv_of_running h ⟨ht, ⟨hb, hkind, hmod, Nat.two_pow_pos _⟩, rfl⟩

omit h in
/-- After the last partition warm-up and residuals are the block (R265). -/
theorem endsWith_of_counted (hr : s.residualOk) (hlast : 2 ^ s.seq.porder.toNat ≤ s.seq.part + 1)
    (hcount : s.files.r.length + s.order = (s.seq.part + 1) * (s.hdr.bs.toNat / 2 ^ s.seq.porder.toNat)) :
    endsWith s s.files.r.length := by
  obtain ⟨⟨-, hk, -⟩, hkind, hmod, hpart⟩ := hr
  refine ⟨?_, hlast, ?_⟩
  · exact hkind.imp (fun hf => ⟨hf, fixed_order_le hk hf⟩) fun hl => ⟨hl, lpc_order_bounds hk hl⟩
  · rw [show s.seq.part + 1 = 2 ^ s.seq.porder.toNat by omega,
      Nat.mul_div_cancel' (Nat.dvd_of_mod_eq_zero hmod)] at hcount
    omega

/-- After a partition the residuals of the partitions so far are there (R262, R265). -/
theorem inv_nextPartition (ht : s.teesAre false true) (hr : s.residualOk)
    (hcount : s.files.r.length + s.order = (s.seq.part + 1) * (s.hdr.bs.toNat / 2 ^ s.seq.porder.toNat)) :
    s.nextPartition.Inv := by
  have hends := fun hlast => endsWith_of_counted hr hlast hcount
  obtain ⟨hb, hkind, hmod, hpart⟩ := hr
  obtain ⟨hs, -, -⟩ := id hb
  obtain ⟨hnext, he⟩ | ⟨hlast, he⟩ := nextPartition_cases s <;> rw [he]
  · exact inv_of_running h ⟨ht, ⟨hb, hkind, hmod, hnext⟩, hcount⟩
  · obtain ⟨c, sh, he⟩ := reconstruct_eq (hends hlast)
    rw [he]
    exact inv_finishSubframe (s := { s with files := _, seq := _ }) h ht hs (length_channelSamples (hends hlast)).ge

omit h in
/-- The length of the partition at hand completes the count (R265). -/
theorem count_add_partLength (hr : s.residualOk)
    (hcount : if s.seq.part = 0 then s.files.r = []
      else s.files.r.length + s.order = s.seq.part * (s.hdr.bs.toNat / 2 ^ s.seq.porder.toNat)) :
    (s.files.r.length : Int) + s.partLength + s.order =
      ((s.seq.part + 1) * (s.hdr.bs.toNat / 2 ^ s.seq.porder.toNat) : Nat) := by
  obtain ⟨-, -, -, hpart⟩ := hr
  rw [State.partLength, partitionLength_eq hpart]
  split at hcount
  · next h0 =>
    rw [if_pos h0, hcount, h0, Nat.zero_add, Nat.one_mul, List.length_nil]
    omega
  · next h0 =>
    rw [if_neg h0, Nat.add_mul, Nat.one_mul]
    omega

theorem inv_partition (ht : s.teesAre false true) (hr : s.residualOk)
    (hcount : if s.seq.part = 0 then s.files.r = []
      else s.files.r.length + s.order = s.seq.part * (s.hdr.bs.toNat / 2 ^ s.seq.porder.toNat))
    {mBits : Nat} {m : BitVec 5} (hm : m.toNat = 2 ^ mBits - 1 ∨ m.toNat ≤ 30) : (s.partition mBits m).Inv := by
  have htotal := count_add_partLength hr hcount
  by_cases hesc : m.toNat = 2 ^ mBits - 1
  · have he : s.partition mBits m = s.raise .unsupportedEscape 0 := if_pos hesc
    rw [he]
    exact inv_raise_zero h rfl nofun
  · have hread := partitionRead_partition s hesc
    obtain hneg | hzero | hpos := lt_trichotomy s.partLength 0
    · rw [hread.negative hneg]
      exact inv_raise_zero h rfl nofun
    · rw [hread.zero hzero]
      refine inv_nextPartition (s := { s with seq := _ }) h ht hr ?_
      rw [hzero, Int.add_zero] at htotal
      exact_mod_cast htotal
    · rw [hread.positive hpos]
      refine inv_of_running h ⟨ht, hr, hm.resolve_left hesc, ?_, ?_⟩
      · dsimp only; omega
      · show s.files.r.length + s.partLength.toNat + s.order = _
        dsimp only
        omega

/-- A residual: after the last one of its partition the next partition follows (R262). -/
theorem inv_residual (hpos : s.seq.pos = .rice) (hp : s.posOk) (v : Word) : (s.residual v).Inv := by
  rw [State.posOk, hpos] at hp
  obtain ⟨ht, hr, hm, htodo, hcount⟩ := hp
  obtain hone | htwo := Nat.eq_or_lt_of_le htodo
  · rw [residual_endsPartition hone.symm]
    refine inv_nextPartition (s := { s with files := _, seq := _ }) h ht hr ?_
    rw [← hone] at hcount
    rw [List.length_append]
    exact hcount
  · rw [residual_further htwo]
    refine inv_of_running h ?_
    unfold State.posOk
    rw [hpos]
    refine ⟨ht, hr, hm, ?_, ?_⟩
    · dsimp only; omega
    · show (s.files.r ++ [v]).length + (s.seq.todo - 1) + s.order = _
      rw [List.length_append, List.length_singleton]
      dsimp only
      omega

/-! ### An element of the position's format -/

/-- Where an element's bits are consumed: what the position asks for, with the tees that its element was read past
(R186, R199, R300). -/
def State.fetchedOk (s : State) : Prop :=
  match s.seq.pos with
  | .frame => s.headerPosOk
  | .crc8 => s.dp.brN = 0 ∧ s.teesAre false true ∧ s.channelsOk ∧ s.blockOk
  | .foot => s.teesAre false false ∧ s.dp.brN = 0 ∧ s.headerOk ∧ ∀ c < s.hdr.nch.toNat, s.covered c
  | _ => s.posOk

/-- Every operation of the position's format leaves the invariant. -/
theorem FormatOp.inv {f : Format} {op : State → State} (hop : FormatOp f op) (hfmt : f = s.format) (hf : s.fetchedOk) :
    (op s).Inv := by
  have hpos := pos_eq_of_format hfmt
  have hp := hf
  rw [State.fetchedOk, hpos] at hp
  unfold State.fetchedOk State.posOk at hf
  rw [hpos] at hf
  cases hop with
  | refused _ hk hne => exact inv_raise_zero h hk hne
  | fixedPart => exact inv_of_running h hf
  | channels ca => exact inv_channelAssignment h hf ca
  | configuredSize | sampleSize => exact inv_of_running h hf
  | numberLead hextra hv =>
    obtain ⟨hhead, hchan⟩ := hf
    exact inv_utf8Lead h hhead hchan hextra hv
  | numberCont payload =>
    obtain ⟨hhead, hchan, hlow, hhigh, hnum⟩ := hf
    exact inv_utf8Cont h hpos hhead hchan hlow hhigh hnum payload
  | blockSize hlow hmax =>
    obtain ⟨hhead, hchan⟩ := hf
    exact inv_of_running h ⟨hhead, hchan, hlow, hmax⟩
  | configuredRate | sampleRate => exact inv_of_running h hf
  | headerCheck stored =>
    obtain ⟨-, ht, hchan, hblock⟩ := hf
    exact inv_checkHeader h ht hchan hblock stored
  | subframeHeader pad t wflag =>
    obtain ⟨ht, hs⟩ := hf
    exact inv_subframeHeader h ht hs pad t wflag
  | wastedBits zeros =>
    obtain ⟨ht, hs, hk⟩ := hf
    exact inv_acceptHeader h ht hs hk (zeros + 1)
  | sample _ v => exact inv_sample h hpos hp v
  | lpcHeader prec shift =>
    obtain ⟨ht, hb, hkind⟩ := hf
    exact inv_lpcHeader h ht hb hkind prec shift
  | coefficient _ v =>
    obtain ⟨ht, hb, hkind, hprec, -⟩ := hf
    exact inv_coefficient h ht hb hkind hprec v
  | residualHeader method porder =>
    obtain ⟨ht, hb, hkind⟩ := hf
    exact inv_residualHeader h ht hb hkind method porder
  | partition4 hm =>
    obtain ⟨ht, hr, hcount⟩ := hf
    exact inv_partition h ht hr hcount (.inr (by omega))
  | partition5 m =>
    obtain ⟨ht, hr, hcount⟩ := hf
    have hlt := m.isLt
    exact inv_partition h ht hr hcount (by omega)
  | residual _ v => exact inv_residual h hpos hp v
  | aligned =>
    obtain ⟨ht, hh, hcov⟩ := hf
    obtain ⟨hb, -, hrest⟩ := h
    exact inv_of_running (s := State.goto (s.withStream s.stream.align) .foot) ⟨hb, Nat.zero_le 7, hrest⟩
      ⟨ht, rfl, hh, hcov⟩
  | footerCheck stored =>
    obtain ⟨ht, hn, hh, hcov⟩ := hf
    exact inv_checkFooter h ht hn hh hcov stored

end Running

/-! ### The element's bits -/

theorem decodeFt_endsAligned {r : Stream} (hr : r.brN = 0) : (decodeFt r).EndsAligned := by
  unfold decodeFt
  split
  · exact fun _ _ h => nomatch h
  · next b0 r1 h1 =>
    split
    · exact fun _ _ h => nomatch h
    · next b1 r2 h2 =>
      obtain ⟨hn1, -⟩ := pull_upcoming hr h1
      obtain ⟨hn2, -⟩ := pull_upcoming hn1 h2
      exact instr_endsAligned hn2

/-- A frame header of a source without bytes ends where it starts (R302). -/
theorem decodeFh_of_empty {r : Stream} (hb : r.bytes = []) (hn : r.brN = 0) : decodeFh r = .stopped r := by
  have hbit : r.readBit = none := readBit_eq_none.2 (upcoming_eq_nil.2 ⟨hn, hb⟩)
  rw [decodeFh, field, Stream.read, Stream.readLoop, hbit]

/-- With the tee of the CRC-8 off, pulls leave of the datapath the CRC-8 and the tees. -/
theorem Pulled.toDatapath_of_off {ps : List Byte} {r r' : Stream} (h : Pulled ps r r') (ht : r.tee8 = false) :
    r'.toDatapath =
      { r.toDatapath with srcPos := r'.srcPos, brCur := r'.brCur, brN := r'.brN, crc16 := r'.crc16 } := by
  simp only [← h.crc8_of_off ht, ← h.tee8, ← h.tee16]

section Fetched

variable {s : State} {ps : List Byte} {i : Instr} {r : Stream} (hp : s.posOk)
  (hfetch : s.openElement.fetch = .instr i r) (hpull : Pulled ps s.openElement.stream r)
include hp hfetch hpull

/-- The fixed part is read with both tees on, and is made of whole bytes (R186, R201). -/
theorem fetchedOk_frame (hpos : s.seq.pos = .frame) : (s.withStream r).fetchedOk := by
  rw [State.posOk, hpos] at hp
  obtain ⟨hn, -⟩ := hp
  rw [fetch_openElement_frame hpos] at hfetch
  rw [stream_openElement_frame hpos] at hpull
  unfold State.fetchedOk
  rw [State.withStream_seq, hpos]
  exact ⟨decodeFh_endsAligned (r := opened s.stream) hn i r hfetch, hpull.tee8, hpull.tee16⟩

/-- The elements of the header are made of whole bytes (R201). -/
theorem fetchedOk_header (hpart : s.seq.pos.framePart = .header) (hne : s.seq.pos ≠ .crc8) :
    (s.withStream r).fetchedOk := by
  rw [openElement_of_framePart (by rw [hpart]; nofun) hne (by rw [hpart]; nofun)] at hfetch hpull
  have hhead : s.headerPosOk → (s.withStream r).headerPosOk := fun ⟨hn, ht8, ht16⟩ =>
    ⟨fetch_endsAligned hpart hn i r hfetch, hpull.tee8.trans ht8, hpull.tee16.trans ht16⟩
  unfold State.fetchedOk State.posOk
  unfold State.posOk at hp
  rw [State.withStream_seq]
  cases hpos : s.seq.pos with
  | ca => rw [hpos] at hp; exact hhead hp
  | ssc | numLead | numCont | bsc | rc => rw [hpos] at hp; exact hp.imp_left hhead
  | crc8 => exact absurd hpos hne
  | _ => rw [hpos] at hpart; cases hpart

/-- The CRC-8 field is read past its tee (R199). -/
theorem fetchedOk_crc8 (hpos : s.seq.pos = .crc8) : (s.withStream r).fetchedOk := by
  rw [State.posOk, hpos] at hp
  obtain ⟨⟨hn, -, ht16⟩, hchan, hblock⟩ := hp
  have hopen : s.openElement.stream = { s.stream with tee8 := false } := by
    rw [State.openElement, hpos]
  rw [hopen] at hpull
  rw [fetch_openElement_crc8 hpos] at hfetch
  unfold State.fetchedOk
  rw [State.withStream_seq, hpos]
  have hn' : r.brN = 0 := bytesField_endsAligned (r := { s.stream with tee8 := false }) rfl hn i r hfetch
  exact ⟨hn', ⟨hpull.tee8, hpull.tee16.trans ht16⟩, hchan, hblock⟩

omit hfetch in
/-- Within the subframes the CRC-8 stays as the header left it (R178). -/
theorem fetchedOk_body (hpart : s.seq.pos.framePart = .body) : (s.withStream r).fetchedOk := by
  have hcrc8 : s.seq.pos ≠ .crc8 := fun hpos => nomatch (congrArg Pos.framePart hpos).symm.trans hpart
  rw [openElement_of_framePart (by rw [hpart]; nofun) hcrc8 (by rw [hpart]; nofun)] at hpull
  have hoff : s.dp.tee8 = false := by
    unfold State.posOk at hp
    cases hpos : s.seq.pos with
    | subHdr | wsuffix | smp | lph | coef | res | part | rice | pad =>
      rw [hpos] at hp
      obtain ⟨⟨hoff, -⟩, -⟩ := hp
      exact hoff
    | _ => rw [hpos] at hpart; cases hpart
  have hdp := hpull.toDatapath_of_off hoff
  unfold State.withStream
  rw [hdp]
  unfold State.fetchedOk State.posOk
  unfold State.posOk at hp
  dsimp only
  cases hpos : s.seq.pos with
  | subHdr | wsuffix | smp | lph | coef | res | part | rice | pad => rw [hpos] at hp; exact hp
  | _ => rw [hpos] at hpart; cases hpart

/-- The footer is pulled at a byte boundary, past its tee (R300). -/
theorem fetchedOk_foot (hpos : s.seq.pos = .foot) : (s.withStream r).fetchedOk := by
  rw [State.posOk, hpos] at hp
  obtain ⟨⟨ht8, -⟩, hn, ⟨hchan, hblock, hcrc⟩, hcov⟩ := hp
  have hopen : s.openElement.stream = { s.stream with tee16 := false } := by
    rw [State.openElement, hpos]
  rw [hopen] at hpull
  rw [fetch_openElement_foot hpos] at hfetch
  have hn' : r.brN = 0 := decodeFt_endsAligned (r := { s.stream with tee16 := false }) hn i r hfetch
  unfold State.fetchedOk
  rw [State.withStream_seq, hpos]
  exact ⟨⟨hpull.tee8.trans ht8, hpull.tee16⟩, hn', ⟨hchan, hblock, hcrc.trans (hpull.crc8_of_off ht8).symm⟩, hcov⟩

/-- Consuming an element's bits keeps what its position asks for. -/
theorem fetchedOk_withStream : (s.withStream r).fetchedOk := by
  cases hpart : s.seq.pos.framePart with
  | command => exact absurd hpart (framePart_ne_command _)
  | start => exact fetchedOk_frame hp hfetch hpull (pos_of_framePart_start hpart)
  | header =>
    by_cases hpos : s.seq.pos = .crc8
    · exact fetchedOk_crc8 hp hfetch hpull hpos
    · exact fetchedOk_header hp hfetch hpull hpart hpos
  | body => exact fetchedOk_body hp hpull hpart
  | footer => exact fetchedOk_foot hp hfetch hpull (pos_of_framePart_footer hpart)

end Fetched

/-- Where no bit of the frame is left, a frame header stops at a byte boundary. -/
theorem brN_of_stopped_frame {s : State} {r : Stream} (hp : s.posOk) (hpos : s.seq.pos = .frame)
    (hempty : s.src.bytes = []) (hf : s.openElement.fetch = .stopped r) : r.brN = 0 := by
  rw [State.posOk, hpos] at hp
  obtain ⟨hn, -⟩ := hp
  rw [fetch_openElement_frame hpos, decodeFh_of_empty (r := opened s.stream) hempty hn] at hf
  cases hf
  exact hn

/-! ### Each element, and each step -/

theorem State.Running.withStream {s : State} (h : s.Running) {r : Stream} (hn : r.brN ≤ 7) :
    (s.withStream r).Running := by
  obtain ⟨hb, -, hrest⟩ := h
  exact ⟨hb, hn, hrest⟩

theorem sampleOk_of_posOk {s : State} (hp : s.posOk) : s.sampleOk := by
  intro hpos
  obtain ⟨-, ⟨-, -, hwidth⟩, -⟩ := (posOk_smp hpos).1 hp
  exact hwidth

/-- The element at the position, decoded: a rejection is of a kind that the core raises. -/
theorem fetch_self_alike (s : State) : s.fetch.Alike Eq s.fetch := fetch_alike readsAlike_eq rfl rfl (fun _ => rfl) rfl

theorem stepElement_keeps_inv {s t : State} (hi : s.Inv) (hb : s.status = .busy) (h : stepElement s = .next t) :
    t.Inv := by
  obtain ⟨hrun, hp⟩ := running_of_inv hi hb
  obtain ⟨-, hn, -⟩ := id hrun
  have hopen : s.openElement.stream.brN ≤ 7 := by simpa using hn
  obtain ⟨ps, hpull, hrest⟩ := rest_pulled hopen (fetch_consumes s.openElement hopen)
  have halike := fetch_self_alike s.openElement
  have helem := stepElement_run (sampleOk_of_posOk hp) h
  generalize hf : s.openElement.fetch = d at *
  cases helem with
  | executed hfmt hop =>
    exact hop.inv (hrun.withStream hrest) rfl (fetchedOk_withStream hp hf hpull)
  | rejected =>
    cases halike with
    | illegal hk =>
      obtain rfl | rfl := hk <;> exact inv_raise_zero (hrun.withStream hrest) rfl nofun
  | ended =>
    refine inv_endOfInput (hrun.withStream hrest) fun hfirst => ?_
    obtain ⟨hpos, hempty⟩ := of_decide_eq_true hfirst
    exact brN_of_stopped_frame hp hpos hempty hf

/-- A NEXT's elements keep the invariant, however many run. -/
theorem runFrame_keeps_inv {fuel : Nat} {s t : State} (hi : s.Inv) (h : runFrame fuel s = .next t) : t.Inv := by
  induction fuel generalizing s with
  | zero => cases h; exact hi
  | succ fuel ih =>
    by_cases hb : s.status = .busy
    · rw [runFrame_busy hb] at h
      cases hs : stepElement s with
      | next u =>
        rw [hs] at h
        exact ih (stepElement_keeps_inv hi hb hs) h
      | fault r => rw [hs] at h; cases h
      | refused r => rw [hs] at h; cases h
    · rw [runFrame_of_not_busy hb] at h
      cases h
      exact hi

/-- Reset leaves the reset values, whatever the surroundings (R380). -/
theorem inv_hardReset (s : State) : s.hardReset.Inv := by
  obtain ⟨hn, he, hm, hw, hst, -⟩ := Proofs.resetHasInv
  exact ⟨hn, he, hm, hw, hst, fun _ => rfl⟩

/-- Between frames the core stands at a frame boundary with the tees off (R303). -/
theorem boundary_of_writable {s : State} (hi : s.Inv) (hw : writable s) : s.boundary := by
  obtain ⟨-, -, -, -, hst, -⟩ := hi
  unfold State.statusOk at hst
  obtain h | h | h := hw <;> rw [h] at hst
  · exact hst
  · obtain ⟨hbound, -⟩ := hst
    exact hbound
  · exact hst

theorem ne_busy_of_writable {s : State} (h : writable s) : s.status ≠ .busy := by
  obtain h | h | h := h <;> rw [h] <;> nofun

/-- Each `STATE` is BUSY, FAULT, or one in which the host may write. -/
theorem status_cases (s : State) : s.status = .busy ∨ s.status = .fault ∨ writable s := by
  unfold writable
  cases s.status <;> simp

/-- Where an accepted NEXT starts (R295): BUSY at the frame header, with cleared fault registers. -/
def State.accepted (s : State) : State :=
  { s with err := .none, errInner := 0, status := .busy, seq := { s.seq with pos := .frame } }

theorem inv_accepted {s : State} (hi : s.Inv) (hw : writable s) : s.accepted.Inv := by
  have hb := boundary_of_writable hi hw
  obtain ⟨hn, -, hm, hsel, -⟩ := hi
  exact inv_of_running ⟨rfl, hn, ⟨rfl, rfl⟩, hm, hsel⟩ hb

/-- A register write changes configuration or window selector, whose unused bits stay 0 (R38). -/
theorem inv_hostWrite {s : State} (hi : s.Inv) (n : Nat) (v : Word) : (s.hostWrite n v).Inv := by
  have hsel : ∀ w : BitVec 32, (w &&& 0xFFFF0007#32) &&& 0xFFF8#32 = 0#32 := by
    intro w
    rw [BitVec.and_assoc]
    exact BitVec.and_zero
  obtain ⟨hn, he, hm, hw, hst, hseq⟩ := id hi
  unfold State.hostWrite
  split
  · split
    · exact ⟨hn, he, hm, hw, hst, hseq⟩
    · exact ⟨hn, he, hm, hw, hst, hseq⟩
    · exact ⟨hn, he, hm, hsel _, hst, hseq⟩
    · exact hi
  · exact hi

/-! ### What a step can do -/

/-- All a step can do: nothing but to take the host's next access, an element, a register write or read, a whole NEXT, or
a reset. -/
inductive StepKind (s : State) : State → Prop where
  /-- no access, a poll that is over, or a write that is ignored -/
  | nothing : StepKind s { s with host := s.host.tail }
  | element {t : State} (hb : s.status = .busy) (h : stepElement s = .next t) : StepKind s t
  | write (hw : writable s) (n : Nat) (v : Word) : StepKind s (State.hostWrite { s with host := s.host.tail } n v)
  | read (n : Nat) : StepKind s (State.hostRead { s with host := s.host.tail } n)
  | next {t : State} (hn : issuesNext s)
      (h : runFrame s.elementBound (State.accepted { s with host := s.host.tail }) = .next t) : StepKind s t
  | resetLine {rest : List HostEvent} (hh : s.host = .resetLine :: rest) :
      StepKind s (State.hardReset { s with host := s.host.tail })
  | reset {n : Nat} {v : Word} {rest : List HostEvent} (hb : s.status ≠ .busy) (hh : s.host = .write n v :: rest)
      (hc : commandOfWrite n v = some .reset) : StepKind s (State.hardReset { s with host := s.host.tail })

/-- RESET outside BUSY (R296): nothing runs after it. -/
theorem stepWrite_reset {s : State} {n : Nat} {v : Word} (hc : commandOfWrite n v = some .reset)
    (hb : s.status ≠ .busy) : stepWrite n v s = .next s.hardReset := by
  rw [stepWrite_of_command hc hb, exec, execReset, if_neg hb, andThen_next]
  exact runFrame_of_not_busy (by rw [State.hardReset_status]; nofun) _

/-- A write in FAULT that is no RESET is ignored (R306). -/
theorem stepWrite_fault_of_ne {s : State} (hf : s.status = .fault) {n : Nat} {v : Word}
    (hc : commandOfWrite n v ≠ some .reset) : stepWrite n v s = .next s := by
  refine stepWrite_fault hf (Classical.or_iff_not_imp_left.2 fun hn hv => hc ?_)
  rw [not_not.1 hn, commandOfWrite_two, hv]
  rfl

theorem step_accepted {s : State} {v : Word} {rest : List HostEvent} (hh : s.host = .write 2 v :: rest)
    (hv : v.extractLsb' 0 2 = 1#2) (hw : writable s) :
    step s = runFrame s.elementBound (State.accepted { s with host := rest }) :=
  step_next hh hv (acceptsNext_of_writable hw)

theorem stepKind_write {s t : State} {n : Nat} {v : Word} {rest : List HostEvent} (hh : s.host = .write n v :: rest)
    (h : step s = .next t) : StepKind s t := by
  have htail : rest = s.host.tail := by rw [hh]; rfl
  have hs := h
  rw [step_write hh] at hs
  subst htail
  obtain hb | hf | hw := status_cases s
  · cases (stepWrite_busy (s := { s with host := s.host.tail }) hb n v).symm.trans hs
    exact .nothing
  · by_cases hc : commandOfWrite n v = some .reset
    · cases (stepWrite_reset (s := { s with host := s.host.tail }) hc (by rw [hf]; nofun)).symm.trans hs
      exact .reset (by rw [hf]; nofun) hh hc
    · cases (stepWrite_fault_of_ne (s := { s with host := s.host.tail }) hf hc).symm.trans hs
      exact .nothing
  · obtain ⟨rfl, hv, -⟩ | ⟨-, -, hc⟩ | hc := commandOfWrite_cases n v
    · exact .next ⟨hw, v, _, hh, hv⟩ ((step_accepted hh hv hw).symm.trans h)
    · have hb := ne_busy_of_writable hw
      cases (stepWrite_reset (s := { s with host := s.host.tail }) hc hb).symm.trans hs
      exact .reset hb hh hc
    · cases (stepWrite_of_no_command hc { s with host := s.host.tail }).symm.trans hs
      exact .write hw n v

theorem stepKind_of_step {s t : State} (h : step s = .next t) : StepKind s t := by
  cases hh : s.host with
  | nil =>
    by_cases hb : s.status = .busy
    · exact .element hb ((step_element hh hb).symm.trans h)
    · cases (step_still hh hb).symm.trans h
      have hnothing := StepKind.nothing (s := s)
      rwa [hh, List.tail_nil, ← hh] at hnothing
  | cons e rest =>
    have htail : rest = s.host.tail := by rw [hh]; rfl
    cases e with
    | write n v => exact stepKind_write hh h
    | read n =>
      cases (step_read hh).symm.trans h
      exact htail ▸ .read n
    | poll =>
      rw [step, stepMachine, hh] at h
      dsimp only at h
      split at h
      · next hb => exact .element hb h
      · cases h
        exact htail ▸ .nothing
    | resetLine =>
      cases (step_resetLine hh).symm.trans h
      exact htail ▸ .resetLine hh

end Sys2Proof.Machine

namespace Sys2Proof.Proofs

open Sys2Proof.Machine Sys2Proof.Claims

/-- Settles O51: elements keep the invariant, so does a NEXT, and the host's accesses touch little of it. -/
theorem invIsKept : Obligations.InvIsKept := by
  unfold Obligations.InvIsKept
  intro s t hi h
  cases stepKind_of_step h with
  | nothing => exact hi
  | element hb hs => exact stepElement_keeps_inv hi hb hs
  | write _ n v => exact inv_hostWrite (s := { s with host := s.host.tail }) hi n v
  | read => exact hi
  | next hn hrun =>
    obtain ⟨hw, -⟩ := hn
    exact runFrame_keeps_inv (inv_accepted (s := { s with host := s.host.tail }) hi hw) hrun
  | resetLine | reset => exact inv_hardReset _

/-- Settles O53: of all a step can do, FAULT leaves a read and what changes nothing. -/
theorem faultIsSticky : Obligations.FaultIsSticky := by
  unfold Obligations.FaultIsSticky
  intro s t hf h hline hreset
  have hnot : ¬writable s := by
    rintro (hw | hw | hw) <;> exact nomatch hf.symm.trans hw
  cases stepKind_of_step h with
  | nothing | read => rfl
  | element hb => exact nomatch hf.symm.trans hb
  | write hw => exact absurd hw hnot
  | next hn =>
    obtain ⟨hw, -⟩ := hn
    exact absurd hw hnot
  | resetLine hh => exact absurd hh (hline _)
  | reset _ hh hc => exact absurd hc (hreset _ _ _ hh)

end Sys2Proof.Proofs
end

section
/-! PROOFS. The end of a NEXT: every element takes bits or leads to a position nearer the end. -/

namespace Sys2Proof.Machine

open Sys2Proof.Claims

/-! ### The bits an element takes -/

/-- The bits of the element at the position that the fixed part has already taken: the header codes (R185). -/
def State.heldBits (s : State) : List Bool :=
  match s.seq.pos with
  | .ca => bvBits s.seq.fix.ca
  | .ssc => bvBits s.seq.fix.ssc
  | .bsc => bvBits s.seq.fix.bsc
  | .rc => bvBits s.seq.fix.rc
  | _ => []

/-- What the invariant gives about the operands that the decoder relies on. -/
structure State.Decodable (s : State) : Prop where
  brN : s.dp.brN ≤ 7
  foot : s.seq.pos = .foot → s.dp.brN = 0
  rice : s.seq.pos = .rice → s.seq.m.toNat ≤ 30
  coef : s.seq.pos = .coef → s.seq.prec.toNat < 15

theorem decodable_of_inv {s : State} (hi : s.Inv) (hb : s.status = .busy) : s.Decodable := by
  obtain ⟨⟨-, hn, -⟩, hp⟩ := running_of_inv hi hb
  refine ⟨hn, fun hpos => ?_, fun hpos => ?_, fun hpos => ?_⟩ <;> rw [State.posOk, hpos] at hp
  · obtain ⟨-, hn0, -⟩ := hp
    exact hn0
  · obtain ⟨-, -, hm, -⟩ := hp
    exact hm
  · obtain ⟨-, -, -, hprec, -⟩ := hp
    exact hprec

/-- Behind the element's instruction stand the bits after its encoding, of which the fixed part may hold the first. -/
theorem fetch_sound {s : State} (h : s.Decodable) :
    s.fetch.Sound s.params.padStrict s.format s.heldBits s.stream := by
  have hdecode : ∀ {f}, (f = .ft → s.dp.brN = 0) → (∀ m, f = .rice m → m ≤ 30) → (∀ b, f = .coef b → b ≤ 15) →
      (decode s.params.padStrict f s.stream).Sound s.params.padStrict f [] s.stream :=
    fun hft hrice hcoef => decode_sound h.brN hft hrice hcoef
  unfold State.fetch State.format State.heldBits
  dsimp only
  cases hpos : s.seq.pos with
  | ca => exact decodeCa_sound _
  | ssc => exact decodeSsc_sound _
  | bsc => exact decodeBsc_sound _
  | rc => exact decodeRc_sound _
  | part =>
    dsimp only
    split <;> exact hdecode nofun nofun nofun
  | coef =>
    have hprec := h.coef hpos
    exact hdecode nofun nofun fun b hb => by cases hb; omega
  | rice => exact hdecode nofun (fun m hm => by cases hm; exact h.rice hpos) nofun
  | foot => exact hdecode (fun _ => h.foot hpos) nofun nofun
  | frame | numLead | numCont | crc8 | subHdr | wsuffix | smp | lph | res | pad => exact hdecode nofun nofun nofun

theorem decodable_openElement {s : State} (h : s.Decodable) : s.openElement.Decodable := by
  obtain ⟨hn, hfoot, hrice, hcoef⟩ := h
  constructor <;> simpa

theorem bitsLeft_openElement (s : State) : s.openElement.stream.bitsLeft = s.stream.bitsLeft := by
  simp [Stream.bitsLeft]

/-- The least number of bits of a format's elements (R101 to R119). -/
def minBits : Format → Nat
  | .cmd => 2
  | .fh => 32
  | .ca => 4
  | .ssc => 3
  | .u8 => 8
  | .u8cont => 8
  | .bsc => 4
  | .rc => 4
  | .crc8 => 8
  | .sfh => 7
  | .wsuffix => 1
  | .smp _ => 1
  | .lph => 4
  | .coef _ => 1
  | .res => 2
  | .part4 => 4
  | .part5 => 5
  | .rice _ => 1
  | .pad => 0
  | .ft => 16

theorem minBits_le_length {i : Instr} (hw : i.wellFormed = true) : minBits i.format ≤ (encode i).length := by
  cases i with
  | smp b v =>
    rw [Instr.wellFormed, fieldFits, Bool.and_eq_true, Bool.and_eq_true, decide_eq_true_iff] at hw
    obtain ⟨⟨hb, -⟩, -⟩ := hw
    rw [encode, length_msbBits]
    exact hb
  | coef b v =>
    rw [Instr.wellFormed, fieldFits, Bool.and_eq_true, Bool.and_eq_true, Bool.and_eq_true, decide_eq_true_iff] at hw
    obtain ⟨⟨⟨hb, -⟩, -⟩, -⟩ := hw
    rw [encode, length_msbBits]
    exact hb
  | wsuffix => simp [encode, minBits, Instr.format]
  | rice =>
    rw [encode, List.length_append, length_unaryBits]
    exact (Nat.le_add_left 1 _).trans (Nat.le_add_right _ _)
  | padbits => exact Nat.zero_le _
  | _ => simp [encode, minBits, Instr.format]

/-- An element leaves behind it no more bits than its format's least number allows, counted with the held ones. -/
theorem bitsLeft_fetched {s : State} (h : s.Decodable) {i : Instr} {r : Stream}
    (hf : s.openElement.fetch = .instr i r) :
    minBits s.format + r.bitsLeft ≤ s.heldBits.length + s.stream.bitsLeft := by
  obtain ⟨hw, -, hi, hbits⟩ := fetch_sound (decodable_openElement h) i r hf
  have hlen := congrArg List.length hbits
  rw [List.length_append, List.length_append, ← bitsLeft_eq, ← bitsLeft_eq, bitsLeft_openElement] at hlen
  have hmin := minBits_le_length hw
  rw [hi, format_openElement] at hmin
  have hheld : s.openElement.heldBits = s.heldBits := by
    unfold State.heldBits
    rw [State.openElement_seq]
  rw [hheld] at hlen
  omega

/-! ### How near the end a position is -/

/-- More than the elements without bits that can come next from a position (R304). -/
def Pos.weight : Pos → Nat
  | .ca | .bsc => 3
  | .ssc | .rc | .subHdr | .wsuffix | .smp | .lph | .coef | .res | .part | .rice | .pad => 2
  | .frame | .numLead | .numCont | .crc8 | .foot => 1

/-- The greatest weight of the positions that an element of a format can lead to. -/
def weightAfter : Format → Nat
  | .cmd => 3
  | .fh | .u8 | .u8cont => 3
  | .ca | .bsc | .crc8 => 2
  | .ssc | .rc | .pad | .ft => 1
  | .sfh | .wsuffix | .smp _ | .lph | .coef _ | .res | .part4 | .part5 | .rice _ => 2

theorem Pos.weight_le (p : Pos) : p.weight ≤ 3 := by
  cases p <;> decide

theorem weight_of_body {p : Pos} (h : p.framePart = .body) : p.weight = 2 := by
  cases p with
  | subHdr | wsuffix | smp | lph | coef | res | part | rice | pad => rfl
  | _ => cases h

/-- Going on within the subframes. -/
theorem GoesOn.weight_le {s t : State} (h : GoesOn .body s t) (hb : t.status = .busy) : t.seq.pos.weight ≤ 2 := by
  obtain hf | ⟨-, hpart, -⟩ := h
  · exact nomatch hf.symm.trans hb
  · exact (weight_of_body hpart).le

/-- Where an element of a format leads while BUSY. -/
theorem FormatOp.weight_le {f : Format} {op : State → State} {s : State} (hop : FormatOp f op) (hf : f = s.format)
    (hb : (op s).status = .busy) : (op s).seq.pos.weight ≤ weightAfter f := by
  have hpart := framePart_format s
  rw [← hf] at hpart
  cases hop with
  | refused => cases hb
  | fixedPart | configuredSize | sampleSize | blockSize | configuredRate | sampleRate | aligned => exact le_rfl
  | channels =>
    unfold State.channelAssignment
    split <;> exact Nat.le_of_ble_eq_true rfl
  | numberLead | numberCont => exact Pos.weight_le _
  | headerCheck =>
    unfold State.checkHeader
    dsimp only
    split
    · rw [State.gotoSubframe_seq]
      dsimp only
      split <;> decide
    · exact Nat.le_of_ble_eq_true rfl
  | subframeHeader => exact (goesOn_subframeHeader s _ _ _).weight_le hb
  | wastedBits => exact (goesOn_acceptHeader s _ _ _).weight_le hb
  | sample => exact (goesOn_sample s _).weight_le hb
  | lpcHeader => exact (goesOn_lpcHeader s _ _).weight_le hb
  | coefficient => exact (goesOn_coefficient s _).weight_le hb
  | residualHeader => exact (goesOn_residualHeader s _ _).weight_le hb
  | partition4 | partition5 => exact (goesOn_partition s _ _).weight_le hb
  | residual => exact (goesOn_residual hpart.symm _).weight_le hb
  | footerCheck =>
    unfold State.checkFooter
    dsimp only
    split <;> exact Nat.le_of_ble_eq_true rfl

/-- Both counts together go down with each element. -/
theorem weightAfter_lt (s : State) : weightAfter s.format + s.heldBits.length < s.seq.pos.weight + minBits s.format := by
  unfold State.format State.heldBits
  cases s.seq.pos with
  | part =>
    dsimp only
    split <;> decide
  | ca | ssc | bsc | rc =>
    rw [length_bvBits]
    exact Nat.le_of_ble_eq_true rfl
  | frame | numLead | numCont | crc8 | subHdr | wsuffix | smp | lph | coef | res | rice | pad | foot =>
    exact Nat.le_of_ble_eq_true rfl

/-! ### What an element leaves in `STATE` -/

/-- `STATE` once a NEXT is over (R301, R302, R345). -/
def State.ended (s : State) : Prop := s.status = .done ∨ s.status = .eos ∨ s.status = .fault

theorem GoesOn.status {p : FramePart} {s t : State} (h : GoesOn p s t) : t.status = s.status ∨ t.status = .fault := by
  obtain hf | ⟨hst, -⟩ := h
  · exact .inr hf
  · exact .inl hst

/-- Executing an element leaves BUSY only for FAULT or DONE. -/
theorem ElementEffect.status {s t : State} (h : ElementEffect s t) :
    t.status = s.status ∨ t.status = .fault ∨ t.status = .done := by
  suffices h' : (t.status = s.status ∨ t.status = .fault) ∨ t.status = .done by rwa [or_assoc] at h'
  cases h with
  | ignored | fixedPart | sampleSize | blockSize | sampleRate | crc8Match | aligned => exact .inl (.inl rfl)
  | raised | crc8Mismatch | crc16Mismatch => exact .inl (.inr rfl)
  | counted => exact .inr rfl
  | channels => exact .inl (goesOn_channelAssignment s _).status
  | numberLead => exact .inl (goesOn_utf8Lead s _ _).status
  | numberCont =>
    unfold State.utf8Cont
    dsimp only
    split <;> exact .inl (.inl rfl)
  | subframeHeader => exact .inl (goesOn_subframeHeader s _ _ _).status
  | wastedBits => exact .inl (goesOn_acceptHeader s _ _ _).status
  | sample => exact .inl (goesOn_sample s _).status
  | lpcHeader => exact .inl (goesOn_lpcHeader s _ _).status
  | coefficient => exact .inl (goesOn_coefficient s _).status
  | residualHeader => exact .inl (goesOn_residualHeader s _ _).status
  | partition => exact .inl (goesOn_partition s _ _).status
  | residual =>
    unfold State.residual
    dsimp only
    split
    · exact .inl (.inl (State.nextPartition_status _))
    · exact .inl (.inl rfl)

/-- In BUSY the operation of an element is the effect of an instruction. -/
theorem elementEffect_of_exec {i : Instr} {op : State → State} (hx : ∀ u, exec i u = .next (op u)) {s : State}
    (hb : s.status = .busy) : ElementEffect s (op s) := by
  obtain ⟨t, ht, he⟩ := exec_effect i hb
  cases (hx s).symm.trans ht
  exact he

/-- An upper bound for the elements a NEXT has left. -/
def State.measure (s : State) : Nat := s.stream.bitsLeft + s.seq.pos.weight

/-- Each element of a NEXT ends it or leaves it fewer elements. -/
theorem stepElement_measure {s t : State} (hi : s.Inv) (hb : s.status = .busy) (h : stepElement s = .next t) :
    t.ended ∨ (t.status = .busy ∧ t.measure < s.measure) := by
  obtain ⟨-, hp⟩ := running_of_inv hi hb
  have helem := stepElement_run (sampleOk_of_posOk hp) h
  generalize hf : s.openElement.fetch = d at helem
  cases helem with
  | @executed i r op hfmt hop hx =>
    have heff : ElementEffect (s.withStream r) (op (s.withStream r)) := elementEffect_of_exec hx hb
    obtain hst | hst | hst := heff.status
    · have hbusy : (op (s.withStream r)).status = .busy := hst.trans hb
      refine .inr ⟨hbusy, ?_⟩
      have hbits := bitsLeft_fetched (decodable_of_inv hi hb) hf
      have hweight := hop.weight_le (s := s.withStream r) rfl hbusy
      have hless := weightAfter_lt s
      have hleft : (op (s.withStream r)).stream.bitsLeft ≤ r.bitsLeft := by
        obtain he | he := heff.stream <;> rw [he]
        · exact le_rfl
        · exact Nat.add_le_add_right (Nat.zero_le _) _
      rw [State.measure, State.measure]
      omega
    · exact .inl (.inr (.inr hst))
    · exact .inl (.inl hst)
  | rejected => exact .inl (.inr (.inr rfl))
  | ended => exact .inl ((endOfInput_status _ _).symm.imp_right id |> .inr)

/-! ### A NEXT to its end -/

theorem Pos.weight_pos (p : Pos) : 1 ≤ p.weight := by
  cases p <;> decide

/-- A NEXT over a finite source ends, after no more elements than its measure (R304, R307). -/
theorem elements_end {s : State} (hi : s.Inv) (hf : s.sourceFits = true) (hb : s.status = .busy) :
    ∃ k ≤ s.measure, ∃ t, elementsTo k s t ∧ t.ended := by
  induction hm : s.measure using Nat.strong_induction_on generalizing s with
  | _ m ih =>
    have hr := readable_of_inv hi hf hb
    have hone : 1 ≤ s.measure := (Pos.weight_pos _).trans (Nat.le_add_left _ _)
    obtain ⟨u, hu⟩ := stepElement_next hr
    obtain hend | ⟨hub, hlt⟩ := stepElement_measure hi hb hu
    · exact ⟨1, hm ▸ hone, u, ⟨hb, u, hu, rfl⟩, hend⟩
    · obtain ⟨k, hk, t, ht, hend⟩ :=
        ih u.measure (hm ▸ hlt) (stepElement_keeps_inv hi hb hu) (stepElement_readable hb hr hu).fits hub rfl
      exact ⟨k + 1, by omega, t, ⟨hb, u, hu, ht⟩, hend⟩

theorem ne_busy_of_ended {s : State} (h : s.ended) : s.status ≠ .busy := by
  obtain h | h | h := h <;> rw [h] <;> nofun

/-- The fuel of an accepted NEXT is enough (R392). -/
theorem accepted_runs {s : State} (hi : s.Inv) (hw : writable s) (hf : s.sourceFits = true) :
    ∃ k t, elementsTo k s.accepted t ∧ t.ended ∧ runFrame s.elementBound s.accepted = .next t := by
  obtain ⟨k, hk, t, ht, hend⟩ := elements_end (s := s.accepted) (inv_accepted hi hw) hf rfl
  have hfuel : k ≤ s.elementBound := hk.trans (Nat.add_le_add_left (Nat.le_of_ble_eq_true rfl) _)
  exact ⟨k, t, ht, hend, runFrame_of_elementsTo hfuel ht (ne_busy_of_ended hend)⟩

theorem sourceFits_of_runFrame {fuel : Nat} {s t : State} (hb : s.status = .busy)
    (h : runFrame (fuel + 1) s = .next t) : s.sourceFits = true := by
  by_contra hfits
  rw [runFrame_busy hb, stepElement, if_neg hfits] at h
  cases h

/-- What an accepted NEXT answers with is the outcome of its elements, at its end. -/
theorem accepted_ends {s t : State} (hi : s.Inv) (hw : writable s)
    (h : runFrame s.elementBound s.accepted = .next t) : ∃ k, elementsTo k s.accepted t ∧ t.ended := by
  obtain ⟨k, u, hu, hend, hrun⟩ := accepted_runs hi hw (sourceFits_of_runFrame (s := s.accepted) rfl h)
  cases hrun.symm.trans h
  exact ⟨k, hu, hend⟩

theorem elementsTo_host {k : Nat} {s t : State} (h : elementsTo k s t) : t.host = s.host := by
  induction k generalizing s with
  | zero => cases h; rfl
  | succ k ih =>
    obtain ⟨hb, u, hu, hrest⟩ := h
    obtain ⟨-, -, -, -, hhost, -⟩ := stepElement_elementFrame hb hu
    exact (ih hrest).trans hhost

/-- Between frames the sequencer stands at the start already (R303), so that acceptance leaves it alone. -/
theorem accepted_eq {s : State} (hi : s.Inv) (hw : writable s) :
    s.accepted = { s with status := .busy, err := .none, errInner := 0 } := by
  obtain ⟨-, -, -, -, -, hseq⟩ := hi
  rw [State.accepted, hseq (ne_busy_of_writable hw)]
  rfl

theorem hostWrite_status (s : State) (n : Nat) (v : Word) : (s.hostWrite n v).status = s.status := by
  unfold State.hostWrite
  split
  · split <;> rfl
  · rfl

end Sys2Proof.Machine

namespace Sys2Proof.Proofs

open Sys2Proof.Machine Sys2Proof.Claims

/-- Settles O57: each element takes bits or comes nearer the end, and a NEXT's fuel is more than these count. -/
theorem nextTerminates : Obligations.NextTerminates := by
  unfold Obligations.NextTerminates
  refine ⟨fun s hi hf hb => ?_, fun s v rest hi hf hw hh hv => ?_, fun s t hi hb h => ?_⟩
  · obtain ⟨k, -, t, ht, hend⟩ := elements_end hi hf hb
    exact ⟨k, t, ht, hend⟩
  · obtain ⟨k, t, ht, hend, hrun⟩ := accepted_runs (s := { s with host := rest }) hi hw hf
    have hhost : t.host = rest := elementsTo_host ht
    rw [accepted_eq (s := { s with host := rest }) hi hw] at ht
    exact ⟨k, t, (step_accepted hh hv hw).trans hrun, hend, hhost, ht⟩
  · cases stepKind_of_step h with
    | nothing | read => exact hb
    | element hbusy => exact absurd hbusy hb
    | write hw n v =>
      rw [hostWrite_status]
      exact hb
    | next hn hrun =>
      obtain ⟨hw, -⟩ := hn
      obtain ⟨k, -, hend⟩ := accepted_ends (s := { s with host := s.host.tail }) hi hw hrun
      exact ne_busy_of_ended hend
    | resetLine | reset =>
      rw [State.hardReset_status]
      nofun

end Sys2Proof.Proofs
end

section
/-! PROOFS. The ends of a frame, by the end of the source at its boundary and by its footer, and what the host's commands
do. -/

namespace Sys2Proof.Machine

open Sys2Proof.Claims

/-! ### The end of the source -/

/-- A stream reads like itself, with what every bit, pull and alignment keeps. -/
theorem readsAlike_of_kept {P : Stream → Prop} (hbit : ∀ {r u b}, r.readBit = some (b, u) → P r → P u)
    (hpull : ∀ {r u b}, r.pull = some (b, u) → P r → P u) (halign : ∀ {r : Stream}, P r → P r.align) :
    ReadsAlike fun r r' => r' = r ∧ P r where
  readBit := by
    intro r r' ⟨he, hp⟩
    subst he
    cases h : r'.readBit with
    | none => exact .inl ⟨rfl, rfl⟩
    | some p => exact .inr ⟨_, _, _, rfl, rfl, rfl, hbit h hp⟩
  pull := by
    intro r r' ⟨he, hp⟩
    subst he
    cases h : r'.pull with
    | none => exact .inl ⟨rfl, rfl⟩
    | some p => exact .inr ⟨_, _, _, rfl, rfl, rfl, hpull h hp⟩
  bitsLeft := by rintro r _ ⟨rfl, -⟩; rfl
  padding := by rintro r _ ⟨rfl, -⟩; exact ⟨rfl, rfl⟩
  align := by rintro r _ ⟨rfl, hp⟩; exact ⟨rfl, halign hp⟩

/-- An element that stops leaves the source's end as it is. -/
theorem term_of_stopped {s : State} {r : Stream} (h : s.fetch = .stopped r) : r.term = s.src.term := by
  have hkept : ReadsAlike fun r r' => r' = r ∧ r.term = s.src.term := by
    refine readsAlike_of_kept (fun hr ht => ?_) (fun hr ht => ?_) id
    · obtain ⟨-, hterm, -⟩ := readBit_spec hr
      exact hterm.trans ht
    · obtain ⟨-, hterm, -⟩ := pull_spec hr
      exact hterm.trans ht
  have halike := fetch_alike hkept (s := s) rfl rfl (fun _ => rfl) ⟨rfl, rfl⟩
  rw [h] at halike
  cases halike with
  | stopped hkept =>
    obtain ⟨-, hterm⟩ := hkept
    exact hterm

/-- EOS is where the source ends with Eof at a frame's first pull. -/
theorem endOfInput_eos {s : State} {first : Bool} (h : (s.endOfInput first).status = .eos) :
    first = true ∧ s.src.term = .eof := by
  unfold State.endOfInput at h
  split at h
  · cases h
  · next hterm =>
    split at h
    · next hfirst => exact ⟨hfirst, hterm⟩
    · cases h

theorem stepElement_eos {s t : State} (hb : s.status = .busy) (h : stepElement s = .next t) (ht : t.status = .eos) :
    s.seq.pos = .frame ∧ s.src.bytes = [] ∧ s.src.term = .eof := by
  obtain ⟨r, ⟨i, -, heff⟩ | ⟨k, -, rfl⟩ | ⟨hf, rfl⟩ | ⟨-, rfl⟩⟩ := stepElement_cases hb h
  · rw [openElement_withStream] at heff
    obtain hst | hst | hst := heff.status
    · exact nomatch ht.symm.trans (hst.trans hb)
    · exact nomatch ht.symm.trans hst
    · exact nomatch ht.symm.trans hst
  · cases ht
  · obtain ⟨hfirst, hterm⟩ := endOfInput_eos ht
    obtain ⟨hpos, hbytes⟩ := of_decide_eq_true hfirst
    have hsrc := term_of_stopped hf
    rw [State.openElement_src] at hsrc
    exact ⟨hpos, hbytes, hsrc.symm.trans hterm⟩
  · rw [openElement_withStream] at ht
    exact nomatch ht.symm.trans hb

/-- The element that ended a NEXT. -/
theorem elementsTo_last {k : Nat} {s t : State} (h : elementsTo k s t) (hb : s.status = .busy) (ht : t.status ≠ .busy) :
    ∃ j u, elementsTo j s u ∧ u.status = .busy ∧ stepElement u = .next t := by
  induction k generalizing s with
  | zero => cases h; exact absurd hb ht
  | succ k ih =>
    obtain ⟨-, u, hu, hrest⟩ := h
    by_cases hub : u.status = .busy
    · obtain ⟨j, v, hv, hvb, hlast⟩ := ih hrest hub
      exact ⟨j + 1, v, ⟨hb, u, hu, hv⟩, hvb, hlast⟩
    · cases k with
      | zero => cases hrest; exact ⟨0, s, rfl, hb, hu⟩
      | succ k =>
        obtain ⟨hbusy, -⟩ := hrest
        exact absurd hbusy hub

/-- The frame header is a NEXT's first element: where it stands again, nothing was taken. -/
theorem stream_of_elementsTo_frame {k : Nat} {s u : State} (hpos : s.seq.pos = .frame) (hn : s.dp.brN = 0)
    (hb : s.status = .busy) (h : elementsTo k s u) (hub : u.status = .busy) (hupos : u.seq.pos = .frame) :
    u.stream = s.stream := by
  have hstart : s.Covered s.stream := by
    rw [State.Covered, hpos]
    exact ⟨rfl, hn⟩
  obtain ⟨hcov, -⟩ :=
    elementsTo_coveredSoFar (hn.trans_le (Nat.zero_le 7)) (sampleOk_of_pos (by rw [hpos]; nofun))
      (coveredSoFar_of_busy hb hstart) h
  replace hcov := hcov hub
  rw [State.Covered, hupos] at hcov
  obtain ⟨hstream, -⟩ := hcov
  exact hstream

/-- The state in EOS (R302, R186): the CRCs are cleared, the tees off. -/
def State.atEndOfStream (s : State) : State :=
  { s with
    status := .eos, err := .endOfStream, errInner := 0, seq := Seq.start,
    dp := { s.dp with crc8 := 0, crc16 := 0, tee8 := false, tee16 := false } }

section Empty

variable {s : State} (hpos : s.seq.pos = .frame) (hbytes : s.src.bytes = []) (hn : s.dp.brN = 0)
include hpos hbytes hn

/-- A frame header over no byte stops at once, whatever the source answers. -/
theorem stepElement_empty : stepElement s = .next ((s.withStream (opened s.stream)).endOfInput true) := by
  have hfits : s.sourceFits = true := by
    have hlt := s.dp.srcPos.isLt
    rw [State.sourceFits, hbytes]
    exact decide_eq_true hlt
  have hf : s.openElement.fetch = .stopped (opened s.stream) := by
    rw [fetch_openElement_frame hpos]
    exact decodeFh_of_empty hbytes hn
  rw [stepElement_stopped hfits hf, openElement_withStream, hpos, hbytes]
  rfl

theorem stepElement_empty_eof (hterm : s.src.term = .eof) : stepElement s = .next s.atEndOfStream := by
  have hterm' : (s.withStream (opened s.stream)).src.term = .eof := hterm
  rw [stepElement_empty hpos hbytes hn, State.endOfInput, hterm']
  rfl

end Empty

/-! ### The footer -/

section Footer

variable {s : State} (hpos : s.seq.pos = .foot)
include hpos

/-- Two bytes left are the footer, pulled past its tee (R300). -/
theorem fetch_footer {b0 b1 : Byte} {rest : List Byte} (hbytes : s.stream.bytes = b0 :: b1 :: rest) :
    ∃ r, s.openElement.fetch = .instr (.foot (b0 ++ b1)) r ∧ Pulled [b0, b1] { s.stream with tee16 := false } r ∧
      r.brN = s.dp.brN := by
  have hone : ∃ r1, Stream.pull { s.stream with tee16 := false } = some (b0, r1) ∧ r1.bytes = b1 :: rest :=
    ⟨_, by rw [Stream.pull, hbytes], rfl⟩
  obtain ⟨r1, hp1, hb1⟩ := hone
  have htwo : ∃ r2, r1.pull = some (b1, r2) := ⟨_, by rw [Stream.pull, hb1]⟩
  obtain ⟨r2, hp2⟩ := htwo
  obtain ⟨-, -, -, -, hn1, -⟩ := pull_spec hp1
  obtain ⟨-, -, -, -, hn2, -⟩ := pull_spec hp2
  refine ⟨r2, ?_, Pulled_trans (Pulled_of_pull hp1) (Pulled_of_pull hp2), hn2.trans hn1⟩
  rw [fetch_openElement_foot hpos, decodeFt, hp1]
  dsimp only
  rw [hp2]

/-- With fewer bytes left the footer stops where the last one is gone. -/
theorem fetch_footer_short (hlen : s.stream.bytes.length < 2) :
    ∃ r, s.openElement.fetch = .stopped r ∧ r.bytes = [] := by
  rw [fetch_openElement_foot hpos, decodeFt]
  cases hp1 : Stream.pull { s.stream with tee16 := false } with
  | none => exact ⟨_, rfl, pull_eq_none.1 hp1⟩
  | some p =>
    obtain ⟨b0, r1⟩ := p
    have hempty : r1.bytes = [] := by
      obtain ⟨hbytes, -⟩ := pull_spec hp1
      have hbytes : s.stream.bytes = b0 :: r1.bytes := hbytes
      rw [hbytes, List.length_cons] at hlen
      exact List.length_eq_zero_iff.1 (by omega)
    dsimp only
    rw [pull_eq_none.2 hempty]
    exact ⟨r1, rfl, hempty⟩

end Footer

/-! ### Commands -/

/-- NEXT outside BUSY and FAULT (R295). -/
theorem execNext_writable {s : State} (h : writable s) : execNext s = .next s.accepted := by
  rw [execNext, if_pos (acceptsNext_of_writable h)]
  rfl

theorem execReset_of_ne_busy {s : State} (h : s.status ≠ .busy) : execReset s = .next s.hardReset := by
  rw [execReset, if_neg h]

/-- A command that leaves BUSY alone runs nothing after it. -/
theorem stepWrite_of_quiet {s t : State} {n : Nat} {v : Word} {i : Instr} (hc : commandOfWrite n v = some i)
    (hb : s.status ≠ .busy) (hx : exec i s = .next t) (ht : t.status ≠ .busy) : stepWrite n v s = exec i s := by
  rw [stepWrite_of_command hc hb, hx, andThen_next]
  exact runFrame_of_not_busy ht _

/-- A write of a command is its execution, but for an accepted NEXT. -/
theorem stepWrite_command {s : State} {n : Nat} {v : Word} {i : Instr} (hc : commandOfWrite n v = some i)
    (hn : ¬(i = .next ∧ writable s)) : stepWrite n v s = exec i s := by
  by_cases hb : s.status = .busy
  · rw [stepWrite, hc]
    exact if_pos hb
  obtain ⟨-, -, hi⟩ | ⟨-, -, hi⟩ | hi := commandOfWrite_cases n v <;> cases hc.symm.trans hi
  · obtain hbusy | hf | hw := status_cases s
    · exact absurd hbusy hb
    · exact stepWrite_of_quiet hc hb (execNext_fault hf) hb
    · exact absurd ⟨rfl, hw⟩ hn
  · exact stepWrite_of_quiet hc hb (execReset_of_ne_busy hb) (by rw [State.hardReset_status]; nofun)

theorem wasReset_hardReset (s : State) : wasReset s s.hardReset := rfl

end Sys2Proof.Machine

namespace Sys2Proof.Proofs

open Sys2Proof.Machine Sys2Proof.Claims

/-- Settles O15: over no byte the frame header stops at once, in a step of its own and in a NEXT. -/
theorem endOfStreamAtTheBoundary : Obligations.EndOfStreamAtTheBoundary := by
  unfold Obligations.EndOfStreamAtTheBoundary
  intro s hbytes hn
  refine ⟨fun ⟨hb, hh, hpos, _⟩ hterm => ?_, fun ⟨hb, hh, hpos, _⟩ e hterm => ?_, fun rest hst hh hterm => ?_⟩
  · rw [step_element hh hb]
    exact stepElement_empty_eof hpos hbytes hn hterm
  · have hterm' : (s.withStream (opened s.stream)).src.term = .ioError e := hterm
    rw [step_element hh hb, stepElement_empty hpos hbytes hn, endOfInput_ioError hterm']
    rfl
  · rw [step_accepted hh rfl (.inr (.inr hst))]
    have hempty := stepElement_empty_eof (s := State.accepted { s with host := rest }) rfl hbytes hn hterm
    have hbusy : (State.accepted { s with host := rest }).status = .busy := rfl
    rw [State.elementBound, runFrame_busy hbusy, hempty, andThen_next]
    exact runFrame_of_not_busy (s := State.atEndOfStream _) (by rw [State.atEndOfStream]; nofun) _

/-- Settles O16: the element that enters EOS is a frame header over no byte, the first element of its NEXT. -/
theorem endOfStreamOnlyThere : Obligations.EndOfStreamOnlyThere := by
  unfold Obligations.EndOfStreamOnlyThere
  refine ⟨fun s t hb h ht => ?_, fun s t hi hnext h ht => ?_⟩
  · cases stepKind_of_step h with
    | nothing | read => exact nomatch ht.symm.trans hb
    | element _ hs => exact stepElement_eos hb hs ht
    | write hw => exact absurd hb (ne_busy_of_writable hw)
    | next hn =>
      obtain ⟨hw, -⟩ := hn
      exact absurd hb (ne_busy_of_writable hw)
    | resetLine | reset => cases ht
  · obtain ⟨hw, v, rest, hh, hv⟩ := hnext
    have hn : s.dp.brN = 0 := brN_of_writable hi hw
    rw [step_accepted hh hv hw] at h
    obtain ⟨k, helements, -⟩ := accepted_ends (s := { s with host := rest }) hi hw h
    obtain ⟨j, u, hu, hub, hlast⟩ := elementsTo_last helements rfl (by rw [ht]; nofun)
    obtain ⟨hpos, hbytes, hterm⟩ := stepElement_eos hub hlast ht
    have hstream : u.stream = s.stream :=
      stream_of_elementsTo_frame (s := State.accepted { s with host := rest }) rfl hn rfl hu hub hpos
    have hsrc : u.src = s.src := congrArg Stream.toSource hstream
    exact ⟨hsrc ▸ hbytes, hsrc ▸ hterm⟩

/-- Settles O45: FOOT compares, and its two bytes are pulled past the tee of the CRC-16. -/
theorem footer : Obligations.Footer := by
  unfold Obligations.Footer
  refine ⟨fun s c => rfl, fun s hs hzero => ?_⟩
  obtain ⟨hb, hh, hpos, hfits⟩ := hs
  rw [step_element hh hb]
  refine ⟨fun b0 b1 rest hbytes => ?_, fun hlen hterm => ?_⟩
  · obtain ⟨r, hf, hp, hn⟩ := fetch_footer hpos hbytes
    refine ⟨r, hp, hp.crc16_of_off rfl, ?_, ?_⟩
    · exact hn.trans hzero
    · rw [stepElement_instr hfits hf]
      rfl
  · obtain ⟨r, hf, hempty⟩ := fetch_footer_short hpos hlen
    have hterm' : (s.withStream r).src.term = .eof := by
      have hsrc := term_of_stopped hf
      rw [State.openElement_src] at hsrc
      exact hsrc.trans hterm
    refine ⟨r, hempty, ?_⟩
    have hfirst : decide (s.seq.pos = .frame ∧ s.src.bytes = []) = false :=
      decide_eq_false fun ⟨hframe, _⟩ => nomatch hpos.symm.trans hframe
    rw [stepElement_stopped hfits hf, openElement_withStream, hfirst, endOfInput_unexpected hterm']
    rfl

/-- Settles O12: an element is fetched and executed; a command is executed, and NEXT, if accepted, runs on. -/
theorem stepRunsTheDecodedInstruction : Obligations.StepRunsTheDecodedInstruction := by
  unfold Obligations.StepRunsTheDecodedInstruction
  refine ⟨fun s i r hfits hb hh hf => ?_, fun s n v rest i hh hc => ⟨fun hn => ?_, fun hi hw => ?_⟩⟩
  · have hstep : step s = stepElement s := by
      obtain hh | ⟨rest, hh⟩ := hh
      · exact step_element hh hb
      · rw [step, stepMachine, hh]
        exact if_pos hb
    rw [hstep, stepElement_instr hfits hf, openElement_withStream]
  · rw [step_write hh]
    exact stepWrite_command hc hn
  · subst hi
    have hx : exec .next { s with host := rest } = .next (State.accepted { s with host := rest }) :=
      execNext_writable (s := { s with host := rest }) hw
    refine ⟨_, hx, ?_⟩
    rw [step_write hh, stepWrite_of_command hc (ne_busy_of_writable (s := { s with host := rest }) hw), hx, andThen_next]

/-- Settles O46: each command by `STATE`, and the reset line in any. -/
theorem commandRows : Obligations.CommandRows := by
  unfold Obligations.CommandRows
  intro s
  refine ⟨fun hw => execNext_writable hw, ?_, fun hb => execReset_busy hb, fun hb => ?_, fun rest hh => ?_⟩
  · rintro (hb | hf)
    · exact execNext_busy hb
    · exact execNext_fault hf
  · exact ⟨_, execReset_of_ne_busy hb, wasReset_hardReset s⟩
  · exact ⟨_, step_resetLine hh, wasReset_hardReset _⟩

end Sys2Proof.Proofs
end

section
/-! PROOFS. Two NEXTs over the same bytes, element by element: at each position the states agree in all that the elements
to come read, whatever else they hold, so that the results agree. -/

namespace Sys2Proof.Machine

open Sys2Proof.Claims

/-! ### The same bits to come -/

/-- Streams that differ only in `src_pos` and in the bits of `br_cur` that are read already. -/
inductive SameBits (r : Stream) : Stream → Prop where
  | mk (p : BitVec 64) (c : Byte) (h : c.toNat % 2 ^ r.brN = r.brCur.toNat % 2 ^ r.brN) :
      SameBits r { r with srcPos := p, brCur := c }

theorem pull_cons {r : Stream} {b : Byte} {rest : List Byte} (hb : r.bytes = b :: rest) :
    r.pull = some (b, { r.tee b with bytes := rest, srcPos := r.srcPos + 1 }) := by
  rw [Stream.pull, hb]

theorem readBit_held {r : Stream} {n : Nat} (hn : r.brN = n + 1) :
    r.readBit = some (r.brCur.getLsbD n, { r with brN := n }) := by
  unfold Stream.readBit
  rw [hn]

theorem readBit_fresh {r r' : Stream} {b : Byte} (hn : r.brN = 0) (hp : r.pull = some (b, r')) :
    r.readBit = some (b.getLsbD 7, { r' with brCur := b, brN := 7 }) := by
  unfold Stream.readBit
  rw [hn]
  dsimp only
  rw [hp]

theorem readBit_starved {r : Stream} (hn : r.brN = 0) (hp : r.pull = none) : r.readBit = none := by
  unfold Stream.readBit
  rw [hn]
  dsimp only
  rw [hp]

namespace SameBits

variable {r r' : Stream}

theorem bytes (h : SameBits r r') : r'.bytes = r.bytes := by
  cases h; rfl

theorem term (h : SameBits r r') : r'.term = r.term := by
  cases h; rfl

theorem brN (h : SameBits r r') : r'.brN = r.brN := by
  cases h; rfl

theorem crc8 (h : SameBits r r') : r'.crc8 = r.crc8 := by
  cases h; rfl

theorem crc16 (h : SameBits r r') : r'.crc16 = r.crc16 := by
  cases h; rfl

theorem withTee8 (h : SameBits r r') (t : Bool) : SameBits { r with tee8 := t } { r' with tee8 := t } := by
  obtain ⟨p, c, h⟩ := h
  exact ⟨p, c, h⟩

theorem withTee16 (h : SameBits r r') (t : Bool) : SameBits { r with tee16 := t } { r' with tee16 := t } := by
  obtain ⟨p, c, h⟩ := h
  exact ⟨p, c, h⟩

theorem withCrcs (h : SameBits r r') (c8 : BitVec 8) (c16 : BitVec 16) (t8 t16 : Bool) :
    SameBits { r with crc8 := c8, crc16 := c16, tee8 := t8, tee16 := t16 }
      { r' with crc8 := c8, crc16 := c16, tee8 := t8, tee16 := t16 } := by
  obtain ⟨p, c, h⟩ := h
  exact ⟨p, c, h⟩

theorem align (h : SameBits r r') : SameBits r.align r'.align := by
  obtain ⟨p, c, -⟩ := h
  exact ⟨p, c, by simp [Stream.align, Nat.mod_one]⟩

theorem pull (h : SameBits r r') : (r.pull = none ∧ r'.pull = none) ∨
    ∃ b u u', r.pull = some (b, u) ∧ r'.pull = some (b, u') ∧ SameBits u u' := by
  obtain ⟨p, c, h⟩ := h
  cases hb : r.bytes with
  | nil => exact .inl ⟨pull_eq_none.2 hb, pull_eq_none.2 hb⟩
  | cons b rest =>
    exact .inr ⟨b, _, _, pull_cons hb, pull_cons (r := { r with srcPos := p, brCur := c }) hb, ⟨p + 1, c, h⟩⟩

theorem readBit (h : SameBits r r') : (r.readBit = none ∧ r'.readBit = none) ∨
    ∃ b u u', r.readBit = some (b, u) ∧ r'.readBit = some (b, u') ∧ SameBits u u' := by
  cases hn : r.brN with
  | zero =>
    have hn' : r'.brN = 0 := h.brN.trans hn
    obtain ⟨hp, hp'⟩ | ⟨b, u, u', hp, hp', hu⟩ := h.pull
    · exact .inl ⟨readBit_starved hn hp, readBit_starved hn' hp'⟩
    · refine .inr ⟨_, _, _, readBit_fresh hn hp, readBit_fresh hn' hp', ?_⟩
      obtain ⟨p, c, -⟩ := hu
      exact ⟨p, b, rfl⟩
  | succ n =>
    have hn' : r'.brN = n + 1 := h.brN.trans hn
    obtain ⟨p, c, hc⟩ := h
    rw [hn] at hc
    have hbit : c.getLsbD n = r.brCur.getLsbD n := by
      have htest := congrArg (Nat.testBit · n) hc
      simpa [← BitVec.testBit_toNat] using htest
    have hlow : c.toNat % 2 ^ n = r.brCur.toNat % 2 ^ n :=
      Nat.ModEq.of_dvd (pow_dvd_pow 2 (Nat.le_succ n)) hc
    exact .inr ⟨_, _, _, readBit_held hn, hbit ▸ readBit_held hn', ⟨p, c, hlow⟩⟩

end SameBits

/-- A frame header starts over the same bits where the same bytes come and no bit is unread (R186). -/
theorem sameBits_opened {r r' : Stream} (hbytes : r'.bytes = r.bytes) (hterm : r'.term = r.term) (hn : r.brN = 0)
    (hn' : r'.brN = 0) : SameBits (opened r) (opened r') := by
  have he : opened r' = { opened r with srcPos := r'.srcPos, brCur := r'.brCur } := by
    obtain ⟨⟨bytes, term⟩, dp⟩ := r
    dsimp only at hbytes hterm hn
    simp only [opened, ← hbytes, ← hterm, hn, hn']
  have hzero : (opened r).brN = 0 := hn
  rw [he]
  exact ⟨_, _, by rw [hzero, pow_zero, Nat.mod_one, Nat.mod_one]⟩

theorem readsAlike_sameBits : ReadsAlike SameBits where
  readBit := SameBits.readBit
  pull := SameBits.pull
  bitsLeft h := by rw [Stream.bitsLeft, h.bytes, h.brN, Stream.bitsLeft]
  padding h := by
    obtain ⟨p, c, h⟩ := h
    exact ⟨rfl, h⟩
  align := SameBits.align

/-- Opening an element at the same position treats the same bits alike (R186, R199, R300). -/
theorem sameBits_openElement {s s' : State} (hseq : s'.seq = s.seq) (h : SameBits s.stream s'.stream) :
    SameBits s.openElement.stream s'.openElement.stream := by
  unfold State.openElement
  rw [hseq]
  cases s.seq.pos with
  | frame => exact h.withCrcs 0 0 true true
  | crc8 => exact h.withTee8 false
  | foot => exact h.withTee16 false
  | _ => exact h

/-! ### What two states in BUSY agree in -/

/-- The header registers that the frame has written before a position (R185); the others as zeros. -/
def Header.known (p : Pos) (k : Header) : Header :=
  match p with
  | .frame | .ca => { var := 0, bs := 0, rate := 0, ca := 0, nch := 0, ss := 0, num := 0, crc8 := 0 }
  | .ssc => { k with bs := 0, rate := 0, ss := 0, num := 0, crc8 := 0 }
  | .numLead | .numCont => { k with bs := 0, rate := 0, num := 0, crc8 := 0 }
  | .bsc => { k with bs := 0, rate := 0, crc8 := 0 }
  | .rc => { k with rate := 0, crc8 := 0 }
  | .crc8 => { k with crc8 := 0 }
  | _ => k

/-- The records and samples of the first `n` channels agree. -/
def State.channelsAgree (s s' : State) (n : Nat) : Prop :=
  ∀ c < n, s'.sub c = s.sub c ∧
    ∀ i < s.hdr.bs.toNat, memRead s'.d (sampleAddr c i) = memRead s.d (sampleAddr c i)

/-- Within a subframe: the channels before this one agree, and this one's record. -/
def State.bodyAgrees (s s' : State) : Prop :=
  s.channelsAgree s' s.seq.ch ∧ s'.sub s.seq.ch = s.sub s.seq.ch

/-- The first `n` warm-up samples agree. -/
def State.warmAgrees (s s' : State) (n : Nat) : Prop := s'.files.w.toList.take n = s.files.w.toList.take n

/-- The first `n` coefficients agree. -/
def State.coefsAgree (s s' : State) (n : Nat) : Prop := s'.files.c.toList.take n = s.files.c.toList.take n

/-- In a residual section: the predictor agrees. Coefficients and shift of FIXED are not read. -/
def State.predictorAgrees (s s' : State) : Prop :=
  s.bodyAgrees s' ∧ s.warmAgrees s' s.order ∧
    (s.cur.kind = .lpc → s.coefsAgree s' s.order ∧ s'.files.shift = s.files.shift)

/-- At each position: agreement in the registers, files and samples that the frame has written so far. -/
def State.dataAgrees (s s' : State) : Prop :=
  s'.hdr.known s.seq.pos = s.hdr.known s.seq.pos ∧
    match s.seq.pos with
    | .frame | .ca | .ssc | .numLead | .numCont | .bsc | .rc | .crc8 => True
    | .subHdr | .wsuffix => s.channelsAgree s' s.seq.ch
    | .smp => s.bodyAgrees s' ∧ (s.predictive → s.warmAgrees s' s.seq.idx)
    | .lph => s.bodyAgrees s' ∧ s.warmAgrees s' s.order
    | .coef =>
      s.bodyAgrees s' ∧ s.warmAgrees s' s.order ∧ s.coefsAgree s' s.seq.idx ∧ s'.files.shift = s.files.shift
    | .res => s.predictorAgrees s'
    | .part | .rice => s.predictorAgrees s' ∧ s'.files.r = s.files.r
    | .pad | .foot => s.channelsAgree s' s.hdr.nch.toNat

/-- Status, fault registers, configuration and parameters. -/
structure Setup where
  status : Status
  err : ErrKind
  errInner : BitVec 32
  cfgRate : BitVec 20
  cfgBps : BitVec 6
  params : Params

def State.setup (s : State) : Setup :=
  { status := s.status, err := s.err, errInner := s.errInner, cfgRate := s.cfgRate, cfgBps := s.cfgBps
    params := s.params }

/-- Two NEXTs at the same position of the same frame: beside the data, all that the elements read agrees. -/
structure Lockstep (s s' : State) : Prop where
  busy : s.status = .busy
  setup : s'.setup = s.setup
  seq : s'.seq = s.seq
  bits : SameBits s.stream s'.stream

/-- Two NEXTs after the same element: both go on, or both are over with the same result. -/
inductive Outcome (t t' : State) : Prop where
  | goesOn (h : Lockstep t t') (hd : t.dataAgrees t')
  | ends (ht : t.ended) (h : sameResult t t')

theorem take_setIfInBounds {n : Nat} (hn : n < 32) (file : Vector Word 32) (v : Word) :
    (file.setIfInBounds n v).toList.take (n + 1) = file.toList.take n ++ [v] :=
  take_foldl_setIfInBounds [v] n file hn

namespace Lockstep

variable {s s' : State}

theorem err (h : Lockstep s s') : s'.err = s.err := congrArg Setup.err h.setup

theorem errInner (h : Lockstep s s') : s'.errInner = s.errInner := congrArg Setup.errInner h.setup

theorem cfgRate (h : Lockstep s s') : s'.cfgRate = s.cfgRate := congrArg Setup.cfgRate h.setup

theorem cfgBps (h : Lockstep s s') : s'.cfgBps = s.cfgBps := congrArg Setup.cfgBps h.setup

theorem params (h : Lockstep s s') : s'.params = s.params := congrArg Setup.params h.setup

/-! ### Ends -/

theorem outcome_raise (h : Lockstep s s') (k : ErrKind) (info : BitVec 32) :
    Outcome (s.raise k info) (s'.raise k info) :=
  .ends (.inr (.inr rfl)) ⟨rfl, rfl, rfl, h.bits.bytes, h.bits.crc8, h.bits.crc16, nofun⟩

theorem outcome_endOfInput (h : Lockstep s s') (first : Bool) : Outcome (s.endOfInput first) (s'.endOfInput first) := by
  have hterm : s'.src.term = s.src.term := h.bits.term
  unfold State.endOfInput
  rw [hterm]
  split
  · exact h.outcome_raise _ _
  · split
    · exact .ends (.inr (.inl rfl)) ⟨rfl, rfl, rfl, h.bits.bytes, h.bits.crc8, h.bits.crc16, nofun⟩
    · exact h.outcome_raise _ _

/-! ### The header -/

/-- Writing header registers alike. -/
theorem outcome_header (h : Lockstep s s') {q q' : Seq} {k k' : Header} (hq : q' = q) (hpart : q.pos.framePart = .header)
    (hk : k'.known q.pos = k.known q.pos) : Outcome { s with hdr := k, seq := q } { s' with hdr := k', seq := q' } := by
  refine .goesOn ⟨h.busy, h.setup, hq, h.bits⟩ ⟨hk, ?_⟩
  dsimp only
  cases hpos : q.pos with
  | frame | ca | ssc | numLead | numCont | bsc | rc | crc8 => trivial
  | _ => rw [hpos] at hpart; cases hpart

theorem outcome_channelAssignment (h : Lockstep s s') (ca : BitVec 4) :
    Outcome (s.channelAssignment ca) (s'.channelAssignment ca) := by
  unfold State.channelAssignment
  split
  · exact h.outcome_raise _ _
  · refine h.outcome_header (by rw [h.seq]) rfl ?_
    rw [h.seq]
    rfl

theorem outcome_numberDone (h : Lockstep s s') (hk : s'.hdr.known .numLead = s.hdr.known .numLead) (v : BitVec 36) :
    Outcome (s.numberDone v) (s'.numberDone v) :=
  h.outcome_header (by rw [h.seq]) rfl (congrArg (fun k => { k with num := v }) hk)

theorem outcome_utf8Lead (h : Lockstep s s') (hk : s'.hdr.known .numLead = s.hdr.known .numLead) (extra : Nat)
    (v : BitVec 36) : Outcome (s.utf8Lead extra v) (s'.utf8Lead extra v) := by
  unfold State.utf8Lead
  split
  · exact h.outcome_numberDone hk v
  · exact h.outcome_header (by rw [h.seq]) rfl hk

theorem outcome_utf8Cont (h : Lockstep s s') (hpos : s.seq.pos = .numCont)
    (hk : s'.hdr.known .numLead = s.hdr.known .numLead) (payload : BitVec 6) :
    Outcome (s.utf8Cont payload) (s'.utf8Cont payload) := by
  unfold State.utf8Cont
  dsimp only
  rw [h.seq]
  split
  · exact h.outcome_numberDone hk _
  · refine h.outcome_header rfl ?_ ?_ <;> dsimp only <;> rw [hpos]
    · rfl
    · exact hk

/-! ### From subframe to subframe -/

theorem cur_eq (h : Lockstep s s') (hb : s.bodyAgrees s') : s'.cur = s.cur := by
  obtain ⟨-, hsub⟩ := hb
  rw [State.cur, h.seq]
  exact hsub

theorem order_eq (h : Lockstep s s') (hb : s.bodyAgrees s') : s'.order = s.order := by
  rw [State.order, h.cur_eq hb, State.order]

theorem outcome_gotoSubframe (h : Lockstep s s') (hhdr : s'.hdr = s.hdr) {c : Nat} (hc : s.channelsAgree s' c) :
    Outcome (s.gotoSubframe c) (s'.gotoSubframe c) := by
  refine .goesOn ⟨h.busy, h.setup, ?_, h.bits⟩ ⟨?_, ?_⟩
  · rw [State.gotoSubframe_seq, State.gotoSubframe_seq, h.seq, hhdr]
  · rw [State.gotoSubframe_hdr, State.gotoSubframe_hdr, hhdr]
  · rw [State.gotoSubframe_seq]
    by_cases hlt : c < s.hdr.nch.toNat
    · rw [if_pos hlt]
      exact hc
    · rw [if_neg hlt]
      exact fun c' hc' => hc c' (hc'.trans_le (Nat.le_of_not_lt hlt))

theorem outcome_checkHeader (h : Lockstep s s') (hk : s'.hdr.known .crc8 = s.hdr.known .crc8) (stored : BitVec 8) :
    Outcome (s.checkHeader stored) (s'.checkHeader stored) := by
  have hcrc8 : s'.dp.crc8 = s.dp.crc8 := h.bits.crc8
  have hhdr : { s'.hdr with crc8 := stored } = { s.hdr with crc8 := stored } :=
    congrArg (fun k => { k with crc8 := stored }) hk
  have hstored : Lockstep { s with hdr := { s.hdr with crc8 := stored } }
      { s' with hdr := { s'.hdr with crc8 := stored } } :=
    ⟨h.busy, h.setup, h.seq, h.bits⟩
  unfold State.checkHeader
  dsimp only
  rw [hcrc8]
  split
  · exact hstored.outcome_gotoSubframe hhdr nofun
  · exact hstored.outcome_raise _ _

/-- The samples of a channel just finished agree where its vector `X` and its record do. -/
theorem channelsAgree_finishSubframe (h : Lockstep s s') (hhdr : s'.hdr = s.hdr) (hb : s.bodyAgrees s')
    (hx : s.hdr.bs.toNat ≤ s.seq.x.length) :
    State.channelsAgree { s with d := s.finishSubframe.d } { s' with d := s'.finishSubframe.d } (s.seq.ch + 1) := by
  have hcur := h.cur_eq hb
  obtain ⟨hch, hsub⟩ := hb
  intro c hc
  obtain hlt | rfl : c < s.seq.ch ∨ c = s.seq.ch := by omega
  · obtain ⟨hsub, hmem⟩ := hch c hlt
    refine ⟨hsub, fun i hi => ?_⟩
    dsimp only
    rw [memRead_finishSubframe, memRead_finishSubframe, h.seq, hhdr, hcur, hmem i hi]
  · refine ⟨hsub, fun i hi => ?_⟩
    have hi : i < s.hdr.bs.toNat := hi
    dsimp only
    rw [memRead_finishSubframe, memRead_finishSubframe, h.seq, hhdr, hcur, Nat.min_eq_left hx, sampleAddr_eq_add _ i,
      if_pos (by omega), if_pos (by omega)]

theorem outcome_finishSubframe (h : Lockstep s s') (hhdr : s'.hdr = s.hdr) (hb : s.bodyAgrees s')
    (hx : s.hdr.bs.toNat ≤ s.seq.x.length) :
    Outcome s.finishSubframe s'.finishSubframe := by
  have hch := h.channelsAgree_finishSubframe hhdr hb hx
  have he : s'.finishSubframe = State.gotoSubframe { s' with d := s'.finishSubframe.d } (s.seq.ch + 1) := by
    rw [← h.seq]
    rfl
  rw [he]
  exact outcome_gotoSubframe (s := { s with d := s.finishSubframe.d }) (s' := { s' with d := s'.finishSubframe.d })
    ⟨h.busy, h.setup, h.seq, h.bits⟩ hhdr hch

/-! ### The header and the body of a subframe -/

theorem outcome_startBody (h : Lockstep s s') (hhdr : s'.hdr = s.hdr) (hb : s.bodyAgrees s') (hbs : 0 < s.hdr.bs.toNat) :
    Outcome s.startBody s'.startBody := by
  rw [startBody_of_samples hbs, startBody_of_samples (by rwa [hhdr]), h.cur_eq hb, h.order_eq hb]
  refine .goesOn ⟨h.busy, h.setup, by rw [h.seq], h.bits⟩ ?_
  by_cases hfix : s.cur.kind = .fixed ∧ s.order = 0
  · obtain ⟨hkind, horder⟩ := id hfix
    rw [if_pos hfix]
    refine ⟨hhdr, hb, ?_, fun hl => nomatch hkind.symm.trans hl⟩
    show List.take s.order _ = List.take s.order _
    rw [horder]
    rfl
  · rw [if_neg hfix]
    exact ⟨hhdr, hb, fun _ => rfl⟩

/-- An accepted header is recorded alike. -/
theorem outcome_recorded (h : Lockstep s s') (hhdr : s'.hdr = s.hdr) (hch : s.channelsAgree s' s.seq.ch) (hs : s.subOk)
    (r : SubRecord) :
    Outcome (State.startBody { s with subs := s.subs.setIfInBounds s.seq.ch r })
      (State.startBody { s' with subs := s'.subs.setIfInBounds s.seq.ch r }) := by
  obtain ⟨⟨hchan, ⟨hbs, -⟩, -⟩, hlt, -⟩ := hs
  obtain ⟨-, hnch⟩ := nch_bounds hchan
  have hlt8 : s.seq.ch < 8 := hlt.trans_le hnch
  refine outcome_startBody ?_ hhdr ⟨fun c hc => ?_, ?_⟩ hbs
  · exact ⟨h.busy, h.setup, h.seq, h.bits⟩
  · obtain ⟨hsub, hmem⟩ := hch c hc
    have hne : s.seq.ch ≠ c := ne_of_gt hc
    rw [sub_setIfInBounds_ne hne, sub_setIfInBounds_ne hne]
    exact ⟨hsub, hmem⟩
  · dsimp only
    rw [sub_setIfInBounds hlt8, sub_setIfInBounds hlt8]

theorem outcome_acceptHeader (h : Lockstep s s') (hhdr : s'.hdr = s.hdr) (hch : s.channelsAgree s' s.seq.ch)
    (hs : s.subOk) (kind : SubKind) (order : BitVec 6) (w : Nat) :
    Outcome (s.acceptHeader kind order w) (s'.acceptHeader kind order w) := by
  have hseq : s'.seq.ch = s.seq.ch := congrArg Seq.ch h.seq
  have hrecorded := h.outcome_recorded hhdr hch hs { kind := kind, order := order, wasted := BitVec.ofNat 6 w }
  unfold State.acceptHeader
  rw [hseq]
  by_cases hwidth : sampleWidth s.hdr.ss s.hdr.ca s.seq.ch w < 1
  · rw [if_pos hwidth, if_pos (by rwa [hhdr])]
    exact h.outcome_raise _ _
  · rw [if_neg hwidth, if_neg (by rwa [hhdr])]
    exact hrecorded

theorem outcome_subframeHeader (h : Lockstep s s') (hhdr : s'.hdr = s.hdr) (hch : s.channelsAgree s' s.seq.ch)
    (hs : s.subOk) (pad : BitVec 1) (t : BitVec 6) (wflag : BitVec 1) :
    Outcome (s.subframeHeader pad t wflag) (s'.subframeHeader pad t wflag) := by
  unfold State.subframeHeader
  rw [h.params]
  split
  · exact h.outcome_raise _ _
  · split
    · exact h.outcome_raise _ _
    · split
      · exact h.outcome_acceptHeader hhdr hch hs _ _ _
      · exact .goesOn ⟨h.busy, h.setup, by rw [h.seq], h.bits⟩ ⟨hhdr, hch⟩

/-- A warm-up sample is appended alike. -/
theorem warmAgrees_setIfInBounds {n : Nat} (hn : n < 32) (hw : s.warmAgrees s' n) (v : Word) :
    (s'.files.w.setIfInBounds n v).toList.take (n + 1) = (s.files.w.setIfInBounds n v).toList.take (n + 1) := by
  rw [take_setIfInBounds hn, take_setIfInBounds hn, hw]

theorem coefsAgree_setIfInBounds {n : Nat} (hn : n < 32) (hc : s.coefsAgree s' n) (v : Word) :
    (s'.files.c.setIfInBounds n v).toList.take (n + 1) = (s.files.c.setIfInBounds n v).toList.take (n + 1) := by
  rw [take_setIfInBounds hn, take_setIfInBounds hn, hc]

theorem order_le_of_predictive (hk : kindOk s.cur.kind s.cur.order = true) (hkind : s.predictive) : s.order ≤ 32 := by
  obtain hkind | hkind := hkind
  · exact (fixed_order_le hk hkind).trans (by decide)
  · obtain ⟨-, hmax⟩ := lpc_order_bounds hk hkind
    exact hmax

theorem outcome_sample_warmup (h : Lockstep s s') (hhdr : s'.hdr = s.hdr) (hb : s.bodyAgrees s') (hkind : s.predictive)
    (hw : s.warmAgrees s' s.seq.idx) (hi : s.seq.idx < s.order) (hp : s.order ≤ 32) (v : Word) :
    Outcome (s.sample v) (s'.sample v) := by
  have hcur := h.cur_eq hb
  have hset := warmAgrees_setIfInBounds (hi.trans_le hp) hw v
  rw [sample_warmup hkind, sample_warmup (s := s') (by rwa [hcur]), hcur, h.order_eq hb, h.seq]
  refine .goesOn ⟨h.busy, h.setup, rfl, h.bits⟩ ?_
  by_cases hlt : s.seq.idx + 1 < s.order
  · rw [if_pos hlt, if_pos hlt]
    exact ⟨hhdr, hb, fun _ => hset⟩
  · have horder : s.seq.idx + 1 = s.order := by omega
    rw [horder] at hset
    rw [if_neg hlt, if_neg hlt]
    by_cases hfix : s.cur.kind = .fixed
    · rw [if_pos hfix]
      exact ⟨hhdr, hb, hset, fun hl => nomatch hfix.symm.trans hl⟩
    · rw [if_neg hfix]
      exact ⟨hhdr, hb, hset⟩

theorem outcome_sample (h : Lockstep s s') (hhdr : s'.hdr = s.hdr) (hpos : s.seq.pos = .smp) (hp : s.posOk)
    (hb : s.bodyAgrees s') (hw : s.predictive → s.warmAgrees s' s.seq.idx) (v : Word) :
    Outcome (s.sample v) (s'.sample v) := by
  obtain ⟨-, ⟨-, hk, -⟩, hverb, hidx⟩ := (posOk_smp hpos).1 hp
  have hcur := h.cur_eq hb
  have hwarm : s.predictive → Outcome (s.sample v) (s'.sample v) := fun hkind =>
    h.outcome_sample_warmup hhdr hb hkind (hw hkind) (hidx hkind) (order_le_of_predictive hk hkind) v
  cases hkind : s.cur.kind with
  | constant =>
    rw [sample_constant hkind, sample_constant (s := s') (by rwa [hcur]), hhdr]
    refine outcome_finishSubframe ?_ hhdr hb (by simp)
    exact ⟨h.busy, h.setup, by rw [h.seq], h.bits⟩
  | verbatim =>
    obtain ⟨hlt, hx⟩ := hverb hkind
    by_cases hi : s.seq.idx + 1 < s.hdr.bs.toNat
    · rw [sample_verbatim hkind hi, sample_verbatim (s := s') (by rwa [hcur]) (by rwa [hhdr, h.seq])]
      refine .goesOn ⟨h.busy, h.setup, by rw [h.seq], h.bits⟩ ⟨hhdr, hb, ?_⟩
      rintro (hk | hk) <;> exact nomatch hkind.symm.trans hk
    · have hlast := Nat.le_of_not_lt hi
      rw [sample_verbatim_last hkind hlast, sample_verbatim_last (s := s') (by rwa [hcur]) (by rwa [hhdr, h.seq])]
      refine outcome_finishSubframe ?_ hhdr hb ?_
      · exact ⟨h.busy, h.setup, by rw [h.seq], h.bits⟩
      · rw [List.length_append, hx]
        exact hlast
  | fixed => exact hwarm (.inl hkind)
  | lpc => exact hwarm (.inr hkind)

theorem outcome_lpcHeader (h : Lockstep s s') (hhdr : s'.hdr = s.hdr) (hb : s.bodyAgrees s')
    (hw : s.warmAgrees s' s.order) (prec : BitVec 4) (shift : BitVec 5) :
    Outcome (s.lpcHeader prec shift) (s'.lpcHeader prec shift) := by
  unfold State.lpcHeader
  split
  · exact h.outcome_raise _ _
  · split
    · exact h.outcome_raise _ _
    · exact .goesOn ⟨h.busy, h.setup, by rw [h.seq], h.bits⟩ ⟨hhdr, hb, hw, rfl, rfl⟩

theorem outcome_coefficient (h : Lockstep s s') (hhdr : s'.hdr = s.hdr) (hb : s.bodyAgrees s')
    (hw : s.warmAgrees s' s.order) (hc : s.coefsAgree s' s.seq.idx) (hshift : s'.files.shift = s.files.shift)
    (hi : s.seq.idx < s.order) (hp : s.order ≤ 32) (v : Word) : Outcome (s.coefficient v) (s'.coefficient v) := by
  have hset := coefsAgree_setIfInBounds (hi.trans_le hp) hc v
  rw [coefficient_eq, coefficient_eq, h.order_eq hb, h.seq]
  refine .goesOn ⟨h.busy, h.setup, rfl, h.bits⟩ ?_
  by_cases hlt : s.seq.idx + 1 < s.order
  · rw [if_pos hlt, if_pos hlt]
    exact ⟨hhdr, hb, hw, hset, hshift⟩
  · have horder : s.seq.idx + 1 = s.order := by omega
    rw [horder] at hset
    rw [if_neg hlt, if_neg hlt]
    exact ⟨hhdr, hb, hw, fun _ => ⟨hset, hshift⟩⟩

/-! ### The residuals -/

theorem outcome_residualHeader (h : Lockstep s s') (hhdr : s'.hdr = s.hdr) (hd : s.predictorAgrees s')
    (method : BitVec 2) (porder : BitVec 4) :
    Outcome (s.residualHeader method porder) (s'.residualHeader method porder) := by
  unfold State.residualHeader
  rw [hhdr]
  split
  · exact h.outcome_raise _ _
  · split
    · exact h.outcome_raise _ _
    · exact .goesOn ⟨h.busy, h.setup, by rw [h.seq], h.bits⟩ ⟨rfl, hd, rfl⟩

/-- The same predictor over the same residuals gives the same samples (R281). -/
theorem channelSamples_eq (h : Lockstep s s') (hd : s.predictorAgrees s') (hr : s'.files.r = s.files.r)
    (hkind : s.predictive) : channelSamples s' = channelSamples s := by
  obtain ⟨hb, hw, hlpc⟩ := hd
  have hw : s'.files.w.toList.take s.order = s.files.w.toList.take s.order := hw
  rw [channelSamples, channelSamples, coefs, coefs, shift, shift, h.cur_eq hb, h.order_eq hb, hw, hr]
  by_cases hfix : s.cur.kind = .fixed
  · rw [if_pos hfix, if_pos hfix, if_pos hfix, if_pos hfix]
  · obtain ⟨hc, hshift⟩ := hlpc (hkind.resolve_left hfix)
    have hc : s'.files.c.toList.take s.order = s.files.c.toList.take s.order := hc
    rw [if_neg hfix, if_neg hfix, if_neg hfix, if_neg hfix, hc, hshift]

theorem outcome_reconstruct (h : Lockstep s s') (hhdr : s'.hdr = s.hdr) (hd : s.predictorAgrees s')
    (hr : s'.files.r = s.files.r) (hends : endsWith s s.files.r.length) : Outcome s.reconstruct s'.reconstruct := by
  obtain ⟨hb, -⟩ := id hd
  have hends' : endsWith s' s'.files.r.length := by
    unfold endsWith at hends ⊢
    rwa [hr, h.cur_eq hb, h.order_eq hb, h.seq, hhdr]
  have hkind : s.predictive := by
    obtain ⟨hkind, -⟩ := hends
    exact hkind.imp And.left And.left
  obtain ⟨c, sh, he⟩ := reconstruct_eq hends
  obtain ⟨c', sh', he'⟩ := reconstruct_eq hends'
  rw [he, he', h.channelSamples_eq hd hr hkind]
  refine outcome_finishSubframe ?_ hhdr hb (length_channelSamples hends).ge
  exact ⟨h.busy, h.setup, by rw [h.seq], h.bits⟩

theorem outcome_nextPartition (h : Lockstep s s') (hhdr : s'.hdr = s.hdr) (hd : s.predictorAgrees s')
    (hr : s'.files.r = s.files.r)
    (hends : 2 ^ s.seq.porder.toNat ≤ s.seq.part + 1 → endsWith s s.files.r.length) :
    Outcome s.nextPartition s'.nextPartition := by
  by_cases hnext : s.seq.part + 1 < 2 ^ s.seq.porder.toNat
  · rw [nextPartition_further hnext, nextPartition_further (by rwa [h.seq])]
    exact .goesOn ⟨h.busy, h.setup, by rw [h.seq], h.bits⟩ ⟨hhdr, hd, hr⟩
  · have hlast := Nat.le_of_not_lt hnext
    rw [nextPartition_last hlast, nextPartition_last (by rwa [h.seq])]
    exact h.outcome_reconstruct hhdr hd hr (hends hlast)

theorem outcome_partition (h : Lockstep s s') (hhdr : s'.hdr = s.hdr) (hd : s.predictorAgrees s')
    (hr : s'.files.r = s.files.r) (hres : s.residualOk)
    (hcount : if s.seq.part = 0 then s.files.r = []
      else s.files.r.length + s.order = s.seq.part * (s.hdr.bs.toNat / 2 ^ s.seq.porder.toNat))
    (mBits : Nat) (m : BitVec 5) : Outcome (s.partition mBits m) (s'.partition mBits m) := by
  obtain ⟨hb, -⟩ := id hd
  have htotal := count_add_partLength hres hcount
  have hlen : s'.partLength = s.partLength := by
    rw [State.partLength, State.partLength, hhdr, h.order_eq hb, h.seq]
  by_cases hesc : m.toNat = 2 ^ mBits - 1
  · have he : ∀ u : State, u.partition mBits m = u.raise .unsupportedEscape 0 := fun u => if_pos hesc
    rw [he, he]
    exact h.outcome_raise _ _
  · have hread := partitionRead_partition s hesc
    have hread' := partitionRead_partition s' hesc
    obtain hneg | hzero | hpos := lt_trichotomy s.partLength 0
    · rw [hread.negative hneg, hread'.negative (by rwa [hlen])]
      exact h.outcome_raise _ _
    · rw [hread.zero hzero, hread'.zero (by rwa [hlen])]
      refine outcome_nextPartition ?_ hhdr hd hr fun hlast => ?_
      · exact ⟨h.busy, h.setup, by rw [h.seq], h.bits⟩
      · refine endsWith_of_counted (s := { s with seq := _ }) hres hlast ?_
        rw [hzero, Int.add_zero] at htotal
        exact_mod_cast htotal
    · rw [hread.positive hpos, hread'.positive (by rwa [hlen]), hlen]
      exact .goesOn ⟨h.busy, h.setup, by rw [h.seq], h.bits⟩ ⟨hhdr, hd, hr⟩

theorem outcome_residual (h : Lockstep s s') (hhdr : s'.hdr = s.hdr) (hpos : s.seq.pos = .rice) (hp : s.posOk)
    (hd : s.predictorAgrees s') (hr : s'.files.r = s.files.r) (v : Word) : Outcome (s.residual v) (s'.residual v) := by
  rw [State.posOk, hpos] at hp
  obtain ⟨-, hres, -, htodo, hcount⟩ := hp
  obtain hone | htwo := Nat.eq_or_lt_of_le htodo
  · rw [residual_endsPartition hone.symm, residual_endsPartition (by rw [h.seq, ← hone]), hr]
    refine outcome_nextPartition ?_ hhdr hd rfl fun hlast => ?_
    · exact ⟨h.busy, h.setup, by rw [h.seq], h.bits⟩
    · refine endsWith_of_counted (s := { s with files := _, seq := _ }) hres hlast ?_
      rw [← hone] at hcount
      rw [List.length_append]
      exact hcount
  · rw [residual_further htwo, residual_further (by rw [h.seq]; exact htwo), hr]
    refine .goesOn ⟨h.busy, h.setup, by rw [h.seq], h.bits⟩ ⟨?_, ?_⟩ <;> dsimp only <;> rw [hpos]
    · exact hhdr
    · exact ⟨hd, rfl⟩

/-! ### The footer -/

theorem outcome_aligned (h : Lockstep s s') (hhdr : s'.hdr = s.hdr) (hch : s.channelsAgree s' s.hdr.nch.toNat) :
    Outcome (State.goto (s.withStream s.stream.align) .foot) (State.goto (s'.withStream s'.stream.align) .foot) :=
  .goesOn ⟨h.busy, h.setup, congrArg (fun q : Seq => { q with pos := .foot }) h.seq, h.bits.align⟩ ⟨hhdr, hch⟩

theorem outcome_checkFooter (h : Lockstep s s') (hhdr : s'.hdr = s.hdr) (hch : s.channelsAgree s' s.hdr.nch.toNat)
    (stored : BitVec 16) : Outcome (s.checkFooter stored) (s'.checkFooter stored) := by
  have hcrc16 : s'.dp.crc16 = s.dp.crc16 := h.bits.crc16
  unfold State.checkFooter
  rw [h.params, hcrc16]
  dsimp only
  split
  · refine outcome_raise ?_ _ _
    exact ⟨h.busy, h.setup, h.seq, h.bits⟩
  · exact .ends (.inl rfl) ⟨rfl, h.err, h.errInner, h.bits.bytes, h.bits.crc8, h.bits.crc16, fun _ => ⟨hhdr, rfl, hch⟩⟩

/-! ### An element -/

/-- Every operation of the position's format has the same outcome in both states. -/
theorem outcome_formatOp (h : Lockstep s s') (hd : s.dataAgrees s') {f : Format} {op : State → State}
    (hop : FormatOp f op) (hfmt : f = s.format) (hf : s.fetchedOk) : Outcome (op s) (op s') := by
  have hpos := pos_eq_of_format hfmt
  have hp := hf
  rw [State.fetchedOk, hpos] at hp
  unfold State.fetchedOk State.posOk at hf
  unfold State.dataAgrees at hd
  rw [hpos] at hf hd
  obtain ⟨hhdr, hd⟩ := hd
  cases hop with
  | refused => exact h.outcome_raise _ _
  | fixedPart => exact h.outcome_header (by rw [h.seq]) rfl rfl
  | channels ca => exact h.outcome_channelAssignment ca
  | configuredSize =>
    dsimp only
    rw [h.cfgBps]
    exact h.outcome_header (by rw [h.seq]) rfl (congrArg (fun k => { k with ss := s.cfgBps }) hhdr)
  | sampleSize v => exact h.outcome_header (by rw [h.seq]) rfl (congrArg (fun k => { k with ss := v }) hhdr)
  | numberLead => exact h.outcome_utf8Lead hhdr _ _
  | numberCont => exact h.outcome_utf8Cont hpos hhdr _
  | @blockSize v => exact h.outcome_header (by rw [h.seq]) rfl (congrArg (fun k => { k with bs := v }) hhdr)
  | configuredRate =>
    dsimp only
    rw [h.cfgRate]
    exact h.outcome_header (by rw [h.seq]) rfl (congrArg (fun k => { k with rate := s.cfgRate }) hhdr)
  | sampleRate v => exact h.outcome_header (by rw [h.seq]) rfl (congrArg (fun k => { k with rate := v }) hhdr)
  | headerCheck stored => exact h.outcome_checkHeader hhdr stored
  | subframeHeader =>
    obtain ⟨-, hs⟩ := hf
    exact h.outcome_subframeHeader hhdr hd hs _ _ _
  | wastedBits zeros =>
    obtain ⟨-, hs, -⟩ := hf
    dsimp only
    rw [h.seq]
    exact h.outcome_acceptHeader hhdr hd hs _ _ _
  | sample =>
    obtain ⟨hb, hw⟩ := hd
    exact h.outcome_sample hhdr hpos hp hb hw _
  | lpcHeader =>
    obtain ⟨hb, hw⟩ := hd
    exact h.outcome_lpcHeader hhdr hb hw _ _
  | coefficient =>
    obtain ⟨hb, hw, hc, hshift⟩ := hd
    obtain ⟨-, ⟨-, hk, -⟩, hkind, -, hi⟩ := hf
    exact h.outcome_coefficient hhdr hb hw hc hshift hi (order_le_of_predictive hk (.inr hkind)) _
  | residualHeader => exact h.outcome_residualHeader hhdr hd _ _
  | partition4 | partition5 =>
    obtain ⟨hd, hr⟩ := hd
    obtain ⟨-, hres, hcount⟩ := hf
    exact h.outcome_partition hhdr hd hr hres hcount _ _
  | residual =>
    obtain ⟨hd, hr⟩ := hd
    exact h.outcome_residual hhdr hpos hp hd hr _
  | aligned => exact h.outcome_aligned hhdr hd
  | footerCheck => exact h.outcome_checkFooter hhdr hd _

/-- Where a sample is read, it is equally wide. -/
theorem width_eq (h : Lockstep s s') (hd : s.dataAgrees s') (hpos : s.seq.pos = .smp) : s'.width = s.width := by
  rw [State.dataAgrees, hpos] at hd
  obtain ⟨hhdr, hb, -⟩ := hd
  have hhdr : s'.hdr = s.hdr := hhdr
  rw [State.width, State.width, hhdr, h.cur_eq hb, h.seq]

end Lockstep

/-- Two NEXTs before the same element: in lockstep once it is opened, with the data of its position. -/
structure State.AgreesWith (s s' : State) : Prop where
  busy : s.status = .busy
  setup : s'.setup = s.setup
  seq : s'.seq = s.seq
  bits : SameBits s.openElement.stream s'.openElement.stream
  data : s.dataAgrees s'

namespace State.AgreesWith

variable {s s' t t' : State}

theorem fetched (ha : s.AgreesWith s') {r r' : Stream} (hr : SameBits r r') :
    Lockstep (s.withStream r) (s'.withStream r') := ⟨ha.busy, ha.setup, ha.seq, hr⟩

theorem busy' (ha : s.AgreesWith s') : s'.status = .busy := (congrArg Setup.status ha.setup).trans ha.busy

theorem bytes (ha : s.AgreesWith s') : s'.src.bytes = s.src.bytes := by
  have hbytes := ha.bits.bytes
  rwa [State.stream_toSource, State.stream_toSource, State.openElement_src, State.openElement_src] at hbytes

theorem fetch_alike (ha : s.AgreesWith s') : s.openElement.fetch.Alike SameBits s'.openElement.fetch := by
  have hopen : ∀ u : State, u.openElement = u.withStream u.openElement.stream := fun u => by
    rw [← openElement_withStream, State.withStream_self]
  have hlock := ha.fetched ha.bits
  rw [hopen s, hopen s']
  exact Machine.fetch_alike readsAlike_sameBits ha.seq hlock.params (fun hpos => hlock.width_eq ha.data hpos) ha.bits

end State.AgreesWith

theorem Lockstep.agreesWith {s s' : State} (h : Lockstep s s') (hd : s.dataAgrees s') : s.AgreesWith s' :=
  ⟨h.busy, h.setup, h.seq, sameBits_openElement h.seq h.bits, hd⟩

/-- Each element of two such NEXTs has the same outcome. -/
theorem stepElement_outcome {s s' t t' : State} (hi : s.Inv) (hi' : s'.Inv) (ha : s.AgreesWith s')
    (h : stepElement s = .next t) (h' : stepElement s' = .next t') : Outcome t t' := by
  obtain ⟨⟨-, hn, -⟩, hp⟩ := running_of_inv hi ha.busy
  obtain ⟨-, hp'⟩ := running_of_inv hi' ha.busy'
  have hopen : s.openElement.stream.brN ≤ 7 := by simpa using hn
  obtain ⟨ps, hpull, -⟩ := rest_pulled hopen (fetch_consumes s.openElement hopen)
  have halike := ha.fetch_alike
  have hrun := stepElement_run (sampleOk_of_posOk hp) h
  have hrun' := stepElement_run (sampleOk_of_posOk hp') h'
  generalize hf : s.openElement.fetch = d at *
  generalize s'.openElement.fetch = d' at *
  cases halike with
  | instr i hr =>
    cases hrun with
    | @executed _ _ op hfmt hop hx =>
      cases hrun' with
      | @executed _ _ op' hfmt' hop' hx' =>
        have hsame : op' = op := funext fun u => Host.Outcome.next.inj ((hx' u).symm.trans (hx u))
        rw [hsame]
        exact (ha.fetched hr).outcome_formatOp ha.data hop rfl (fetchedOk_withStream hp hf hpull)
  | illegal hk hr =>
    cases hrun
    cases hrun'
    exact (ha.fetched hr).outcome_raise _ _
  | stopped hr =>
    cases hrun
    cases hrun'
    rw [ha.seq, ha.bytes]
    exact (ha.fetched hr).outcome_endOfInput _
  | badWidth => cases hrun

/-- Two such NEXTs end with the same result. -/
theorem runFrame_sameResult {fuel : Nat} {s s' t t' : State} (hi : s.Inv) (hi' : s'.Inv) (ha : s.AgreesWith s')
    (h : runFrame fuel s = .next t) (h' : runFrame fuel s' = .next t') (ht : t.ended) : sameResult t t' := by
  induction fuel generalizing s s' with
  | zero =>
    cases h
    exact absurd ha.busy (ne_busy_of_ended ht)
  | succ fuel ih =>
    rw [runFrame_busy ha.busy] at h
    rw [runFrame_busy ha.busy'] at h'
    cases hs : stepElement s with
    | next u =>
      cases hs' : stepElement s' with
      | next u' =>
        rw [hs] at h
        rw [hs'] at h'
        have hiu := stepElement_keeps_inv hi ha.busy hs
        have hiu' := stepElement_keeps_inv hi' ha.busy' hs'
        cases stepElement_outcome hi hi' ha hs hs' with
        | goesOn hlock hd => exact ih hiu hiu' (hlock.agreesWith hd) h h'
        | ends hend hres =>
          have hend' : u'.status ≠ .busy := by
            obtain ⟨hst, -⟩ := hres
            rw [hst]
            exact ne_busy_of_ended hend
          cases (runFrame_of_not_busy (ne_busy_of_ended hend) fuel).symm.trans h
          cases (runFrame_of_not_busy hend' fuel).symm.trans h'
          exact hres
      | fault r => rw [hs'] at h'; cases h'
      | refused r => rw [hs'] at h'; cases h'
    | fault r => rw [hs] at h; cases h
    | refused r => rw [hs] at h; cases h

/-- Accepted NEXTs with the same inputs stand before the same element. -/
theorem accepted_agreesWith {s s' : State} (hi : s.Inv) (hi' : s'.Inv) (hw : writable s) (hw' : writable s')
    (hin : sameInputs s s') : s.accepted.AgreesWith s'.accepted := by
  obtain ⟨hrate, hbps, hparams, hbytes, hterm⟩ := hin
  have hseq : s'.accepted.seq = s.accepted.seq := by
    rw [accepted_eq hi hw, accepted_eq hi' hw']
    obtain ⟨-, -, -, -, -, hstart⟩ := hi
    obtain ⟨-, -, -, -, -, hstart'⟩ := hi'
    rw [hstart (ne_busy_of_writable hw), hstart' (ne_busy_of_writable hw')]
  have hn := brN_of_writable hi hw
  have hn' := brN_of_writable hi' hw'
  refine ⟨rfl, ?_, hseq, ?_, rfl, trivial⟩
  · simp only [State.setup, State.accepted, hrate, hbps, hparams]
  · rw [stream_openElement_frame (s := s.accepted) rfl, stream_openElement_frame (s := s'.accepted) rfl]
    exact sameBits_opened hbytes hterm hn hn'

/-- Where the bits left are as many, so is the fuel of a NEXT. -/
theorem elementBound_eq {s s' : State} (hi : s.Inv) (hi' : s'.Inv) (hw : writable s) (hw' : writable s')
    (hbytes : s'.stream.bytes = s.stream.bytes) : s'.elementBound = s.elementBound := by
  have hn : s.stream.brN = 0 := brN_of_writable hi hw
  have hn' : s'.stream.brN = 0 := brN_of_writable hi' hw'
  rw [State.elementBound, State.elementBound, Stream.bitsLeft, Stream.bitsLeft, hbytes, hn, hn']

end Sys2Proof.Machine

namespace Sys2Proof.Proofs

open Sys2Proof.Machine Sys2Proof.Claims

/-- Settles O60: the two NEXTs run in lockstep over the same bits, element by element, to the same result. -/
theorem framesDependOnTheirBytes : Obligations.FramesDependOnTheirBytes := by
  unfold Obligations.FramesDependOnTheirBytes
  intro s s' t hi hi' hnext hnext' hin hfits h
  obtain ⟨t', h'⟩ := everyStepAnswers s' hi' hfits
  refine ⟨t', h', ?_⟩
  obtain ⟨hw, v, rest, hh, hv⟩ := hnext
  obtain ⟨hw', v', rest', hh', hv'⟩ := hnext'
  obtain ⟨-, -, -, hbytes, -⟩ := id hin
  rw [step_accepted hh hv hw] at h
  rw [step_accepted hh' hv' hw', elementBound_eq hi hi' hw hw' hbytes] at h'
  obtain ⟨-, -, hend⟩ := accepted_ends (s := { s with host := rest }) hi hw h
  exact runFrame_sameResult (s := State.accepted { s with host := rest })
    (s' := State.accepted { s' with host := rest' })
    (inv_accepted (s := { s with host := rest }) hi hw) (inv_accepted (s := { s' with host := rest' }) hi' hw')
    (accepted_agreesWith (s := { s with host := rest }) (s' := { s' with host := rest' }) hi hi' hw hw' hin) h h' hend

end Sys2Proof.Proofs
end

section
/-! PROOFS. What a NEXT finds in the counters, in `D` and in what the host last read stays apart from what it decodes. -/

namespace Sys2Proof.Machine

open Sys2Proof.Claims

/-! ### A state without its history -/

/-- The state with the items that `SameButHistory` leaves open at zero (R308, R38). -/
def State.withoutHistory (s : State) : State :=
  { s with
    dp := { s.dp with srcPos := 0 }, frameCount := 0, d := [], dSel := 0, hostData := 0, freeCount := 0 }

/-- Streams that differ only in `src_pos`. -/
inductive SameButPos (r : Stream) : Stream → Prop where
  | mk (p : BitVec 64) : SameButPos r { r with srcPos := p }

theorem SameButPos.pull {r r' : Stream} (h : SameButPos r r') : (r.pull = none ∧ r'.pull = none) ∨
    ∃ b u u', r.pull = some (b, u) ∧ r'.pull = some (b, u') ∧ SameButPos u u' := by
  obtain ⟨p⟩ := h
  cases hb : r.bytes with
  | nil => exact .inl ⟨pull_eq_none.2 hb, pull_eq_none.2 hb⟩
  | cons b rest => exact .inr ⟨b, _, _, pull_cons hb, pull_cons (r := { r with srcPos := p }) hb, ⟨p + 1⟩⟩

theorem readsAlike_sameButPos : ReadsAlike SameButPos where
  readBit := by
    intro r r' h
    cases hn : r.brN with
    | zero =>
      have hn' : r'.brN = 0 := by cases h; exact hn
      obtain ⟨hp, hp'⟩ | ⟨b, u, u', hp, hp', ⟨p⟩⟩ := h.pull
      · exact .inl ⟨readBit_starved hn hp, readBit_starved hn' hp'⟩
      · exact .inr ⟨_, _, _, readBit_fresh hn hp, readBit_fresh hn' hp', ⟨p⟩⟩
    | succ n =>
      obtain ⟨p⟩ := h
      exact .inr ⟨_, _, _, readBit_held hn, readBit_held (r := { r with srcPos := p }) hn, ⟨p⟩⟩
  pull := SameButPos.pull
  bitsLeft := by rintro r _ ⟨p⟩; rfl
  padding := by rintro r _ ⟨p⟩; exact ⟨rfl, rfl⟩
  align := by rintro r _ ⟨p⟩; exact ⟨p⟩

/-! ### Each operation goes on without the history alike -/

@[simp] theorem State.withoutHistory_cur (s : State) : s.withoutHistory.cur = s.cur := rfl

@[simp] theorem State.withoutHistory_order (s : State) : s.withoutHistory.order = s.order := rfl

@[simp] theorem State.withoutHistory_hdr (s : State) : s.withoutHistory.hdr = s.hdr := rfl

@[simp] theorem State.withoutHistory_seq (s : State) : s.withoutHistory.seq = s.seq := rfl

@[simp] theorem State.withoutHistory_files (s : State) : s.withoutHistory.files = s.files := rfl

@[simp] theorem State.withoutHistory_params (s : State) : s.withoutHistory.params = s.params := rfl

@[simp] theorem State.withoutHistory_src (s : State) : s.withoutHistory.src = s.src := rfl

@[simp] theorem State.withoutHistory_crc8 (s : State) : s.withoutHistory.dp.crc8 = s.dp.crc8 := rfl

@[simp] theorem State.withoutHistory_crc16 (s : State) : s.withoutHistory.dp.crc16 = s.dp.crc16 := rfl

/-- The operation does the same to the rest of the state, whatever the history. -/
def HistoryFree (op : State → State) : Prop := ∀ s : State, (op s).withoutHistory = (op s.withoutHistory).withoutHistory

theorem historyFree_openElement : HistoryFree State.openElement := by
  intro s
  unfold State.openElement
  rw [State.withoutHistory_seq]
  split <;> rfl

theorem historyFree_raise (k : ErrKind) (info : BitVec 32) : HistoryFree (·.raise k info) := fun _ => rfl

theorem historyFree_endOfInput (first : Bool) : HistoryFree (·.endOfInput first) := by
  intro s
  dsimp only
  unfold State.endOfInput
  rw [State.withoutHistory_src]
  split
  · rfl
  · split <;> rfl

theorem historyFree_channelAssignment (ca : BitVec 4) : HistoryFree (·.channelAssignment ca) := by
  intro s
  dsimp only
  unfold State.channelAssignment
  split <;> rfl

theorem historyFree_utf8Lead (extra : Nat) (v : BitVec 36) : HistoryFree (·.utf8Lead extra v) := by
  intro s
  dsimp only
  unfold State.utf8Lead
  split <;> rfl

theorem historyFree_utf8Cont (payload : BitVec 6) : HistoryFree (·.utf8Cont payload) := by
  intro s
  dsimp only
  unfold State.utf8Cont
  rw [State.withoutHistory_seq]
  dsimp only
  split <;> rfl

theorem historyFree_checkHeader (stored : BitVec 8) : HistoryFree (·.checkHeader stored) := by
  intro s
  dsimp only
  unfold State.checkHeader
  rw [State.withoutHistory_crc8]
  dsimp only
  split <;> rfl

theorem historyFree_checkFooter (stored : BitVec 16) : HistoryFree (·.checkFooter stored) := by
  intro s
  dsimp only
  unfold State.checkFooter
  rw [State.withoutHistory_params, State.withoutHistory_crc16]
  dsimp only
  split <;> rfl

theorem historyFree_reconstruct : HistoryFree State.reconstruct := by
  intro s
  unfold State.reconstruct
  rw [State.withoutHistory_cur]
  split <;> rfl

theorem historyFree_nextPartition : HistoryFree State.nextPartition := by
  intro s
  unfold State.nextPartition
  rw [State.withoutHistory_seq]
  split
  · rfl
  · exact historyFree_reconstruct s

theorem historyFree_startBody : HistoryFree State.startBody := by
  intro s
  unfold State.startBody
  rw [State.withoutHistory_cur, State.withoutHistory_hdr]
  split
  · rfl
  · split <;> rfl
  · rfl
  · rfl

theorem historyFree_acceptHeader (kind : SubKind) (order : BitVec 6) (w : Nat) :
    HistoryFree (·.acceptHeader kind order w) := by
  intro s
  dsimp only
  unfold State.acceptHeader
  rw [State.withoutHistory_hdr, State.withoutHistory_seq]
  split
  · rfl
  · exact historyFree_startBody _

theorem historyFree_subframeHeader (pad : BitVec 1) (t : BitVec 6) (wflag : BitVec 1) :
    HistoryFree (·.subframeHeader pad t wflag) := by
  intro s
  dsimp only
  unfold State.subframeHeader
  rw [State.withoutHistory_params]
  split
  · rfl
  · split
    · rfl
    · split
      · exact historyFree_acceptHeader _ _ _ s
      · rfl

theorem historyFree_sample (v : Word) : HistoryFree (·.sample v) := by
  intro s
  dsimp only
  unfold State.sample
  rw [State.withoutHistory_cur]
  dsimp only
  split
  · rfl
  · rw [State.withoutHistory_seq, State.withoutHistory_hdr]
    split <;> rfl
  · rw [State.withoutHistory_seq, State.withoutHistory_order]
    split <;> rfl
  · rw [State.withoutHistory_seq, State.withoutHistory_order]
    split <;> rfl

theorem historyFree_lpcHeader (prec : BitVec 4) (shift : BitVec 5) : HistoryFree (·.lpcHeader prec shift) := by
  intro s
  dsimp only
  unfold State.lpcHeader
  split
  · rfl
  · split <;> rfl

theorem historyFree_coefficient (v : Word) : HistoryFree (·.coefficient v) := by
  intro s
  dsimp only
  rw [coefficient_eq, coefficient_eq]
  rfl

theorem historyFree_residualHeader (method : BitVec 2) (porder : BitVec 4) :
    HistoryFree (·.residualHeader method porder) := by
  intro s
  dsimp only
  unfold State.residualHeader
  rw [State.withoutHistory_hdr]
  split
  · rfl
  · split <;> rfl

theorem historyFree_partition (mBits : Nat) (m : BitVec 5) : HistoryFree (·.partition mBits m) := by
  intro s
  dsimp only
  unfold State.partition
  rw [State.withoutHistory_hdr, State.withoutHistory_order, State.withoutHistory_seq]
  dsimp only
  split
  · rfl
  · split
    · rfl
    · split
      · exact historyFree_nextPartition _
      · rfl

theorem historyFree_residual (v : Word) : HistoryFree (·.residual v) := by
  intro s
  dsimp only
  unfold State.residual
  rw [State.withoutHistory_files, State.withoutHistory_seq]
  dsimp only
  split
  · exact historyFree_nextPartition _
  · rfl

theorem FormatOp.historyFree {f : Format} {op : State → State} (h : FormatOp f op) : HistoryFree op := by
  cases h with
  | refused => exact historyFree_raise _ _
  | fixedPart | configuredSize | sampleSize | blockSize | configuredRate | sampleRate | aligned => exact fun _ => rfl
  | channels ca => exact historyFree_channelAssignment ca
  | numberLead => exact historyFree_utf8Lead _ _
  | numberCont payload => exact historyFree_utf8Cont payload
  | headerCheck stored => exact historyFree_checkHeader stored
  | subframeHeader => exact historyFree_subframeHeader _ _ _
  | wastedBits zeros => exact fun s => historyFree_acceptHeader s.seq.kind s.seq.order (zeros + 1) s
  | sample _ v => exact historyFree_sample v
  | lpcHeader => exact historyFree_lpcHeader _ _
  | coefficient _ v => exact historyFree_coefficient v
  | residualHeader => exact historyFree_residualHeader _ _
  | partition4 | partition5 => exact historyFree_partition _ _
  | residual _ v => exact historyFree_residual v
  | footerCheck stored => exact historyFree_checkFooter stored

/-- States that agree without their history do so behind such an operation. -/
theorem HistoryFree.congr {op : State → State} (h : HistoryFree op) {s s' : State}
    (hs : s.withoutHistory = s'.withoutHistory) : (op s).withoutHistory = (op s').withoutHistory := by
  rw [h s, h s', hs]

/-! ### An element, and a NEXT -/

theorem sameButPos_stream {s s' : State} (h : s.withoutHistory = s'.withoutHistory) : SameButPos s.stream s'.stream := by
  have he : { s.stream with srcPos := s'.dp.srcPos } = s'.stream :=
    congrArg (fun u : State => { u.stream with srcPos := s'.dp.srcPos }) h
  rw [← he]
  exact ⟨_⟩

theorem withStream_withoutHistory {s s' : State} (h : s.withoutHistory = s'.withoutHistory) {r r' : Stream}
    (hr : SameButPos r r') : (s.withStream r).withoutHistory = (s'.withStream r').withoutHistory := by
  obtain ⟨p⟩ := hr
  exact congrArg (fun u : State => (u.withStream { r with srcPos := p }).withoutHistory)
    (a₁ := s.withoutHistory) (a₂ := s'.withoutHistory) h

/-- Each element leaves the same but for the history. -/
theorem stepElement_withoutHistory {s s' t t' : State} (hs : s.sampleOk) (hs' : s'.sampleOk)
    (h : s.withoutHistory = s'.withoutHistory) (ht : stepElement s = .next t) (ht' : stepElement s' = .next t') :
    t.withoutHistory = t'.withoutHistory := by
  have hopen := historyFree_openElement.congr h
  have halike : s.openElement.fetch.Alike SameButPos s'.openElement.fetch :=
    fetch_alike readsAlike_sameButPos (congrArg State.seq hopen).symm (congrArg (·.params) hopen).symm
      (fun _ => (congrArg State.width hopen).symm) (sameButPos_stream hopen)
  have hrun := stepElement_run hs ht
  have hrun' := stepElement_run hs' ht'
  generalize s.openElement.fetch = d at halike hrun
  generalize s'.openElement.fetch = d' at halike hrun'
  cases halike with
  | instr i hr =>
    cases hrun with
    | @executed _ _ op hfmt hop hx =>
      cases hrun' with
      | @executed _ _ op' hfmt' hop' hx' =>
        have hsame : op' = op := funext fun u => Host.Outcome.next.inj ((hx' u).symm.trans (hx u))
        rw [hsame]
        exact hop.historyFree.congr (withStream_withoutHistory h hr)
  | illegal hk hr =>
    cases hrun
    cases hrun'
    exact (historyFree_raise _ _).congr (withStream_withoutHistory h hr)
  | stopped hr =>
    cases hrun
    cases hrun'
    have hpos : s'.seq.pos = s.seq.pos := congrArg (·.seq.pos) h.symm
    have hbytes : s'.src.bytes = s.src.bytes := congrArg (·.src.bytes) h.symm
    rw [hpos, hbytes]
    exact (historyFree_endOfInput _).congr (withStream_withoutHistory h hr)
  | badWidth => cases hrun

theorem runFrame_withoutHistory {fuel : Nat} {s s' t t' : State} (hi : s.Inv) (hi' : s'.Inv)
    (h : s.withoutHistory = s'.withoutHistory) (ht : runFrame fuel s = .next t) (ht' : runFrame fuel s' = .next t') :
    t.withoutHistory = t'.withoutHistory := by
  induction fuel generalizing s s' with
  | zero =>
    cases ht
    cases ht'
    exact h
  | succ fuel ih =>
    have hstatus : s'.status = s.status := congrArg (·.status) h.symm
    by_cases hb : s.status = .busy
    · have hb' := hstatus.trans hb
      rw [runFrame_busy hb] at ht
      rw [runFrame_busy hb'] at ht'
      obtain ⟨-, hp⟩ := running_of_inv hi hb
      obtain ⟨-, hp'⟩ := running_of_inv hi' hb'
      cases hs : stepElement s with
      | next u =>
        cases hs' : stepElement s' with
        | next u' =>
          rw [hs] at ht
          rw [hs'] at ht'
          exact ih (stepElement_keeps_inv hi hb hs) (stepElement_keeps_inv hi' hb' hs')
            (stepElement_withoutHistory (sampleOk_of_posOk hp) (sampleOk_of_posOk hp') h hs hs') ht ht'
        | fault r => rw [hs'] at ht'; cases ht'
        | refused r => rw [hs'] at ht'; cases ht'
      | fault r => rw [hs] at ht; cases ht
      | refused r => rw [hs] at ht; cases ht
    · rw [runFrame_of_not_busy hb] at ht
      rw [runFrame_of_not_busy (hstatus ▸ hb)] at ht'
      cases ht
      cases ht'
      exact h

/-- States that differ only in history have the same inputs. -/
theorem sameInputs_of_withoutHistory {s s' : State} (h : s.withoutHistory = s'.withoutHistory) : sameInputs s s' :=
  ⟨congrArg (·.cfgRate) h.symm, congrArg (·.cfgBps) h.symm, congrArg (·.params) h.symm,
    congrArg (·.stream.bytes) h.symm, congrArg (·.stream.term) h.symm⟩

end Sys2Proof.Machine

namespace Sys2Proof.Proofs

open Sys2Proof.Machine Sys2Proof.Claims

/-- Settles O59: no element reads the history, and the samples are those of O60's common result. -/
theorem framesAreIndependent : Obligations.FramesAreIndependent := by
  unfold Obligations.FramesAreIndependent
  intro s s' t t' hsame hi hi' hnext h h'
  have hsame : s.withoutHistory = s'.withoutHistory := hsame
  have hin := sameInputs_of_withoutHistory hsame
  obtain ⟨hw, v, rest, hh, hv⟩ := id hnext
  have hw' : writable s' := by
    have hstatus : s'.status = s.status := congrArg (·.status) hsame.symm
    rwa [writable, hstatus]
  have hh' : s'.host = .write 2 v :: rest := (congrArg (·.host) hsame.symm).trans hh
  obtain ⟨-, -, -, hbytes, -⟩ := id hin
  have hrun := (step_accepted hh hv hw).symm.trans h
  have hrun' := (step_accepted hh' hv hw').symm.trans h'
  have hfits : s'.sourceFits = true := sourceFits_of_runFrame (s := State.accepted { s' with host := rest }) rfl hrun'
  rw [elementBound_eq hi hi' hw hw' hbytes] at hrun'
  have hstart := congrArg (fun u : State => (State.accepted { u with host := rest }).withoutHistory)
    (a₁ := s.withoutHistory) (a₂ := s'.withoutHistory) hsame
  refine ⟨?_, fun hdone c hc i hlt => ?_⟩
  · exact runFrame_withoutHistory (inv_accepted (s := { s with host := rest }) hi hw)
      (inv_accepted (s := { s' with host := rest }) hi' hw') hstart hrun hrun'
  · have hnext' : issuesNext s' := ⟨hw', v, rest, hh', hv⟩
    obtain ⟨u, hu, -, -, -, -, -, -, hres⟩ := framesDependOnTheirBytes s s' t hi hi' hnext hnext' hin hfits h
    cases hu.symm.trans h'
    obtain ⟨-, -, hchannels⟩ := hres hdone
    obtain ⟨-, hmem⟩ := hchannels c hc
    exact (hmem i hlt).symm

end Sys2Proof.Proofs
end
